-- ==== Sys2Proof/Word.lean ====
section
/-! DEFINITION. The words of the engine: bytes, sector numbers, 512-byte blocks (spec/00_scope.md R8, R9). -/

namespace Sys2Proof

/-- A byte, bit 7 the most significant (R8). -/
abbrev Byte := BitVec 8

/-- A sector number or a sector count: 33 bits, so that `2^32` is representable (R25, R26, D20). -/
abbrev Sector := BitVec 33

/-- BLOCK_SIZE: bytes per sector and per data block (R6). -/
abbrev blockBytes : Nat := 512

/-- The payload of a sector: exactly 512 bytes, by type (R54, U13). -/
abbrev Block := { bytes : List Byte // bytes.length = blockBytes }

/-- The block of 512 zero bytes. -/
def Block.zero : Block := ⟨List.replicate blockBytes 0x00#8, List.length_replicate⟩

/-- The card-specific data register as it arrives: sixteen bytes, byte 0 first (R30, R80). -/
abbrev Csd := Vector Byte 16

end Sys2Proof
end

