-- ==== Sys2Proof/Config.lean ====
section
/-! DEFINITION. The parameters of one engine (spec/00_scope.md R6) and the free values of the model. -/

namespace Sys2Proof

/-- The parameters of R6, constant for the life of one engine; State holds one of these and no step
changes it (log 2). The last three are the values 92_eei_decisions.md asks a model to carry as
configuration fields (D3, D4, D15). -/
structure Params where
  /-- RETRY_BUDGET: most exchanges in any one poll loop, at least 1 (R6, D1). -/
  retryBudget : Nat
  /-- INIT_BUDGET: most iterations of the IdleWait loop, at least 1 (R6, D2). -/
  initBudget : Nat
  /-- WRITE_ENABLE: false when the configuration disables the write path (R6, D14). -/
  writeEnable : Bool
  /-- CAP_BIAS: 0 or 1 (R6, D3). -/
  capBias : Fin 2
  /-- CSD_HC_STRUCT: "the high-capacity encoding" of the CSD structure-version field (R6, D4). -/
  csdHcStruct : BitVec 2
  /-- The cursor value the Ready step writes (R136, D15). -/
  readyPosition : Sector
  deriving DecidableEq, Repr

namespace Config

/-- FILL: the byte sent when the engine only wants to receive (R6, R103). -/
def fill : Byte := 0xFF#8

/-- The two bytes sent in the CRC position of an outbound block (R79, D6). -/
def crcFiller : Byte := 0xFF#8

/-- The data start token (R76). -/
def startToken : Byte := 0xFE#8

/-- RETRY_BUDGET less 1: OPEN in the spec (D1), so a constant with no body (log 2). -/
opaque retryBudgetPred : Nat

/-- INIT_BUDGET less 1: OPEN in the spec (D2), so a constant with no body (log 2). -/
opaque initBudgetPred : Nat

/-- WRITE_ENABLE: OPEN in the spec (D14), so a constant with no body (log 2). -/
opaque writeEnable : Bool

/-- The byte the card answers where State lists none: a free value (R51, D26; log 3). -/
opaque cardByte : Nat → Byte

/-- What BLOCKSIZE returns without a successful initialization: a free value (R179, U1; log 5). -/
opaque freeBlockSize : Nat → BitVec 33

/-- What BLOCKCOUNT returns without a successful initialization: a free value (R180, U1; log 5). -/
opaque freeBlockCount : Nat → BitVec 33

/-- The bytes that the CMD24 row sends outside a WRITE, by the number of the draw and the byte index: the row has
no payload of its own and the spec states none, a free value (R122; log 31). -/
opaque freePayloadByte : Nat → Nat → Byte

/-- The free payload of a draw. -/
def freePayload (draw : Nat) : Block :=
  ⟨(List.range blockBytes).map (freePayloadByte draw), by simp⟩

/-- The parameters of this hardware (R6): both budgets at least 1 and otherwise open, CAP_BIAS 0
(D3), CSD_HC_STRUCT 0b01 (D4), the cursor 0 at Ready (D15). -/
def params : Params :=
  { retryBudget := retryBudgetPred + 1
    initBudget := initBudgetPred + 1
    writeEnable := writeEnable
    capBias := 0
    csdHcStruct := 0b01#2
    readyPosition := 0#33 }

end Config

end Sys2Proof
end

