-- ==== Sys2Proof/Syntax.lean ====
section
/-! DEFINITION. The rows of spec/opcode_table.json, one constructor each. -/

namespace Sys2Proof

/-- The 21 rows of the opcode table: the seven commands the engine emits (R82), the eight wire formats
(R70), the five host operations (R85) and INIT (R130). -/
inductive Instr where
  /-- CMD0, the reset command (R116). -/
  | cmd0
  /-- CMD8, the interface-condition command (R117). -/
  | cmd8
  /-- CMD9, read the card-specific register (R120). -/
  | cmd9
  /-- CMD17, READ_SINGLE_BLOCK of a sector (R121). -/
  | cmd17 (sector : BitVec 32)
  /-- CMD24, WRITE_BLOCK of a sector (R122). -/
  | cmd24 (sector : BitVec 32)
  /-- ACMD41, index 41 after the prefix CMD55 (R119). -/
  | acmd41
  /-- CMD55, the application-command prefix (R118). -/
  | cmd55
  /-- R1, the status response: bits 6:0, bit 7 being 0 (R74). -/
  | r1 (bits : BitVec 7)
  /-- R7, the four reply bytes after the R1 of CMD8 (R75). -/
  | r7 (b0 b1 b2 b3 : Byte)
  /-- START, the data start token 0xFE, in both directions (R76). -/
  | start
  /-- DRESP_ACCEPT, an accepting data-response token with its ignored bits 7:5 (R77). -/
  | drespAccept (ignored : BitVec 3)
  /-- READY, the line state byte 0xFF (R87). -/
  | ready
  /-- RXBLOCK, an inbound data block: payload of 16 or 512 bytes, two CRC bytes (R78). -/
  | rxblock (payload : List Byte) (crc0 crc1 : Byte)
  /-- TXBLOCK, an outbound data block (R79). -/
  | txblock (payload : Block)
  /-- CSD, the card-specific data register as the payload of an RXBLOCK (R80). -/
  | csd (register : Csd)
  /-- SEEK to a sector (R176). -/
  | seek (sector : BitVec 32)
  /-- READ at the cursor (R177). -/
  | read
  /-- WRITE of 512 bytes at the cursor (R178). -/
  | write (payload : Block)
  /-- BLOCKSIZE (R179). -/
  | blocksize
  /-- BLOCKCOUNT (R180). -/
  | blockcount
  /-- INIT, the autonomous initialization (R130). -/
  | init
  deriving DecidableEq, Repr

end Sys2Proof
end

