-- ==== Sys2Proof/WellFormed.lean ====
section
/-! DEFINITION. Which terms of Instr are rows of the opcode table. The other shapes are right by type. -/

namespace Sys2Proof

/-- The payload of an inbound block is 16 bytes (the CSD) or 512 bytes (a sector) (R78, R84). -/
def legalInboundLength (length : Nat) : Bool := length == 16 || length == blockBytes

/-- Well-formed instructions: the one operand whose shape the type leaves open is the payload of an
RXBLOCK. -/
def Instr.wf : Instr → Bool
  | .cmd0 | .cmd8 | .cmd9 | .cmd17 _ | .cmd24 _ | .acmd41 | .cmd55 => true
  | .r1 _ | .r7 _ _ _ _ | .start | .drespAccept _ | .ready => true
  | .rxblock payload _ _ => legalInboundLength payload.length
  | .txblock _ | .csd _ => true
  | .seek _ | .read | .write _ | .blocksize | .blockcount => true
  | .init => true

end Sys2Proof
end

