-- ==== Sys2Proof/Decode.lean ====
section
/-! DEFINITION. The wire formats and the host request word (spec/30_encoding.md): the decoder, total and
rejecting by name, and after it the encoder. -/

namespace Sys2Proof

/-! ## Fields of a command frame (R71 to R73) -/

/-- `be32(v)`: the four bytes of a 32-bit value, most significant first (R9, R53 a). -/
def be32 (v : BitVec 32) : List Byte :=
  [v.extractLsb' 24 8, v.extractLsb' 16 8, v.extractLsb' 8 8, v.extractLsb' 0 8]

/-- The 32-bit value of four bytes, most significant first (R53 a). -/
def ofBe32 (b1 b2 b3 b4 : Byte) : BitVec 32 := b1 ++ b2 ++ b3 ++ b4

/-- The CRC/filler byte, selected by the index alone (R73, R113, D9). -/
def crcByte (index : BitVec 6) : Byte :=
  if index = 0#6 then 0x95#8 else if index = 8#6 then 0x69#8 else 0xFF#8

/-- Frame byte 0: `0x40 | (index & 0x3F)` (R71). -/
def frameHead (index : BitVec 6) : Byte := 0x40#8 ||| index.zeroExtend 8

/-- The six bytes of a command frame (R71). -/
def commandFrame (index : BitVec 6) (arg : BitVec 32) : Vector Byte 6 :=
  #v[frameHead index, arg.extractLsb' 24 8, arg.extractLsb' 16 8, arg.extractLsb' 8 8,
    arg.extractLsb' 0 8, crcByte index]

/-- The argument of CMD8 (R72). -/
def cmd8Argument : BitVec 32 := 0x000001A5#32

/-- The argument of ACMD41: bit 30 set (R72). -/
def acmd41Argument : BitVec 32 := 0x40000000#32

/-! ## What is decoded, and in which context

A byte has a meaning only in the context in which it travels (R83): 0x05 is an R1 while the engine polls
for R1 and an accepting data response after a block. -/

/-- A host request as it stands on the request lines: the 35-bit word `op << 32 | sector` and, for
WRITE, the 512 bytes alongside (R86). -/
structure HostRequest where
  /-- bits 34:32 the operation, bits 31:0 the sector (R86) -/
  word : BitVec 35
  /-- the payload lines, read by WRITE only (log 7) -/
  payload : Block
  deriving DecidableEq, Repr

/-- The operation code of a request word (R86). -/
def HostRequest.op (r : HostRequest) : BitVec 3 := r.word.extractLsb' 32 3

/-- The sector field of a request word (R86). -/
def HostRequest.sector (r : HostRequest) : BitVec 32 := r.word.extractLsb' 0 32

/-- What an instruction looks like from outside the engine. -/
inductive Encoded where
  /-- bytes on the bus, byte 0 first (R70) -/
  | wire (bytes : List Byte)
  /-- a host request (R86) -/
  | request (r : HostRequest)
  /-- INIT: nothing, it starts by itself (R130) -/
  | nothing
  deriving DecidableEq, Repr

/-- Where the bytes travel: the formats of R70. -/
inductive Context where
  /-- a command frame, engine to card (R71) -/
  | command
  /-- the byte an R1 poll receives (R74) -/
  | status
  /-- the four bytes after the R1 of CMD8 (R75) -/
  | reply
  /-- the data start token (R76) -/
  | token
  /-- the data-response byte (R77) -/
  | dataResponse
  /-- the line state byte of a ready or not-busy poll (R87) -/
  | lineState
  /-- an inbound block of a known payload length (R78, R84) -/
  | inbound (length : Nat)
  /-- an outbound block (R79) -/
  | outbound
  /-- the sixteen CSD bytes (R80) -/
  | register
  /-- the host request lines (R86) -/
  | host
  /-- leaving reset (R232) -/
  | reset
  deriving DecidableEq, Repr

/-- Why the decoder gives no instruction. -/
inductive DecodeError where
  /-- not as many bytes as the format has (R70) -/
  | wrongLength
  /-- a frame that is none of the seven commands (R82, R83 a) -/
  | unknownCommand
  /-- a polled byte that fails its test: "not yet" (R83 b, d, f) -/
  | notYet
  /-- a data-response byte that does not accept (R83 e) -/
  | rejected
  /-- an outbound block without the token or the fillers (R79) -/
  | badBlock
  /-- request code 0 (R86, U10) -/
  | noRequest
  /-- request codes 6 and 7 (R86, U10) -/
  | reservedRequest
  /-- bytes where a request belongs, or a request where bytes belong -/
  | wrongMedium
  deriving DecidableEq, Repr

/-! ## The decoder -/

/-- R1 validity: bit 7 clear (R74). -/
def isR1 (b : Byte) : Bool := b.getLsbD 7 == false

/-- The data-response test `(d & 0x1F) == 0x05` (R77). -/
def isAccepting (d : Byte) : Bool := d &&& 0x1F#8 == 0x05#8

/-- A command frame by its first byte, its argument and its CRC/filler byte: the table of R82. -/
def decodeCommand (head : Byte) (arg : BitVec 32) (crc : Byte) : Except DecodeError Instr :=
  if head = 0x40#8 ∧ arg = 0#32 ∧ crc = 0x95#8 then .ok .cmd0
  else if head = 0x48#8 ∧ arg = 0x000001A5#32 ∧ crc = 0x69#8 then .ok .cmd8
  else if head = 0x49#8 ∧ arg = 0#32 ∧ crc = 0xFF#8 then .ok .cmd9
  else if head = 0x51#8 ∧ crc = 0xFF#8 then .ok (.cmd17 arg)
  else if head = 0x58#8 ∧ crc = 0xFF#8 then .ok (.cmd24 arg)
  else if head = 0x69#8 ∧ arg = 0x40000000#32 ∧ crc = 0xFF#8 then .ok .acmd41
  else if head = 0x77#8 ∧ arg = 0#32 ∧ crc = 0xFF#8 then .ok .cmd55
  else .error .unknownCommand

/-- An inbound block: token, `length` payload bytes, two CRC bytes; a length that no command asks for is
refused (R78, R84). -/
def decodeInbound (length : Nat) (bytes : List Byte) : Except DecodeError Instr :=
  match bytes with
  | [] => .error .wrongLength
  | token :: rest =>
    if token ≠ Config.startToken then .error .notYet
    else if legalInboundLength length = false ∨ rest.length ≠ length + 2 then .error .wrongLength
    else .ok (.rxblock (rest.take length) (rest.getD length 0) (rest.getD (length + 1) 0))

/-- An outbound block: token, 512 payload bytes, two fillers (R79). -/
def decodeOutbound (bytes : List Byte) : Except DecodeError Instr :=
  match bytes with
  | [] => .error .wrongLength
  | token :: rest =>
    if h : (rest.take blockBytes).length = blockBytes then
      if token = Config.startToken ∧ rest.drop blockBytes = [Config.crcFiller, Config.crcFiller] then
        .ok (.txblock ⟨rest.take blockBytes, h⟩)
      else .error .badBlock
    else .error .wrongLength

/-- The sixteen bytes of a CSD (R80). -/
def decodeRegister (bytes : List Byte) : Except DecodeError Instr :=
  if h : bytes.length = 16 then .ok (.csd ⟨⟨bytes⟩, h⟩) else .error .wrongLength

/-- A host request by its operation code (R86). -/
def decodeRequest (r : HostRequest) : Except DecodeError Instr :=
  if r.op = 0#3 then .error .noRequest
  else if r.op = 1#3 then .ok (.seek r.sector)
  else if r.op = 2#3 then .ok .read
  else if r.op = 3#3 then .ok (.write r.payload)
  else if r.op = 4#3 then .ok .blocksize
  else if r.op = 5#3 then .ok .blockcount
  else .error .reservedRequest

/-- Bytes on the bus, in their context. -/
def decodeWire (c : Context) (bytes : List Byte) : Except DecodeError Instr :=
  match c with
  | .command =>
    match bytes with
    | [b0, b1, b2, b3, b4, b5] => decodeCommand b0 (ofBe32 b1 b2 b3 b4) b5
    | _ => .error .wrongLength
  | .status =>
    match bytes with
    | [b] => if isR1 b then .ok (.r1 (b.extractLsb' 0 7)) else .error .notYet
    | _ => .error .wrongLength
  | .reply =>
    match bytes with
    | [b0, b1, b2, b3] => .ok (.r7 b0 b1 b2 b3)
    | _ => .error .wrongLength
  | .token =>
    match bytes with
    | [b] => if b = Config.startToken then .ok .start else .error .notYet
    | _ => .error .wrongLength
  | .dataResponse =>
    match bytes with
    | [b] => if isAccepting b then .ok (.drespAccept (b.extractLsb' 5 3)) else .error .rejected
    | _ => .error .wrongLength
  | .lineState =>
    match bytes with
    | [b] => if b = 0xFF#8 then .ok .ready else .error .notYet
    | _ => .error .wrongLength
  | .inbound length => decodeInbound length bytes
  | .outbound => decodeOutbound bytes
  | .register => decodeRegister bytes
  | .host | .reset => .error .wrongMedium

/-- The decoder: total on any bytes and any request word. -/
def decode (c : Context) (e : Encoded) : Except DecodeError Instr :=
  match e with
  | .wire bytes => decodeWire c bytes
  | .request r => if c = .host then decodeRequest r else .error .wrongMedium
  | .nothing => if c = .reset then .ok .init else .error .wrongMedium

/-! ## The encoder -/

/-- The context in which an instruction travels. -/
def Instr.context : Instr → Context
  | .cmd0 | .cmd8 | .cmd9 | .cmd17 _ | .cmd24 _ | .acmd41 | .cmd55 => .command
  | .r1 _ => .status
  | .r7 _ _ _ _ => .reply
  | .start => .token
  | .drespAccept _ => .dataResponse
  | .ready => .lineState
  | .rxblock payload _ _ => .inbound payload.length
  | .txblock _ => .outbound
  | .csd _ => .register
  | .seek _ | .read | .write _ | .blocksize | .blockcount => .host
  | .init => .reset

/-- The byte of an R1: bit 7 clear (R74). -/
def r1Byte (bits : BitVec 7) : Byte := 0#1 ++ bits

/-- The byte of an accepting data response (R77). -/
def acceptByte (ignored : BitVec 3) : Byte := ignored ++ 0b00101#5

/-- The bytes of an inbound block (R78). -/
def inboundBytes (payload : List Byte) (crc0 crc1 : Byte) : List Byte :=
  Config.startToken :: (payload ++ [crc0, crc1])

/-- The bytes of an outbound block (R79). -/
def outboundBytes (payload : Block) : List Byte :=
  Config.startToken :: (payload.val ++ [Config.crcFiller, Config.crcFiller])

/-- A request word `op << 32 | sector` (R86). -/
def requestWord (op : BitVec 3) (sector : BitVec 32) : BitVec 35 := op ++ sector

/-- The encoding of an instruction; fields the format ignores are sent as 0. -/
def encode : Instr → Encoded
  | .cmd0 => .wire (commandFrame 0#6 0#32).toList
  | .cmd8 => .wire (commandFrame 8#6 cmd8Argument).toList
  | .cmd9 => .wire (commandFrame 9#6 0#32).toList
  | .cmd17 sector => .wire (commandFrame 17#6 sector).toList
  | .cmd24 sector => .wire (commandFrame 24#6 sector).toList
  | .acmd41 => .wire (commandFrame 41#6 acmd41Argument).toList
  | .cmd55 => .wire (commandFrame 55#6 0#32).toList
  | .r1 bits => .wire [r1Byte bits]
  | .r7 b0 b1 b2 b3 => .wire [b0, b1, b2, b3]
  | .start => .wire [Config.startToken]
  | .drespAccept ignored => .wire [acceptByte ignored]
  | .ready => .wire [0xFF#8]
  | .rxblock payload crc0 crc1 => .wire (inboundBytes payload crc0 crc1)
  | .txblock payload => .wire (outboundBytes payload)
  | .csd register => .wire register.toList
  | .seek sector => .request ⟨requestWord 1#3 sector, Block.zero⟩
  | .read => .request ⟨requestWord 2#3 0#32, Block.zero⟩
  | .write payload => .request ⟨requestWord 3#3 0#32, payload⟩
  | .blocksize => .request ⟨requestWord 4#3 0#32, Block.zero⟩
  | .blockcount => .request ⟨requestWord 5#3 0#32, Block.zero⟩
  | .init => .nothing

/-! ## Words as spec/opcode_table.json numbers them -/

/-- The bytes of a table word of `count` bytes: the table writes the first byte on the wire as the most
significant (bit 47 of a frame is bit 7 of byte 0; R71, R80; log 16). -/
def tableBytes (count w : Nat) : List Byte :=
  match count with
  | 0 => []
  | count + 1 => BitVec.ofNat 8 (w / 2 ^ (8 * count)) :: tableBytes count w

/-- `Except` to `Option`. -/
def decoded (r : Except DecodeError Instr) : Option Instr :=
  match r with
  | .ok i => some i
  | .error _ => none

/-- A single table byte without its context: the row with the most fixed bits that matches (log 16). -/
def decodeLoneByte (b : Byte) : Option Instr :=
  if b = 0xFF#8 then some .ready
  else if b = Config.startToken then some .start
  else if isAccepting b then some (.drespAccept (b.extractLsb' 5 3))
  else decoded (decode .status (.wire [b]))

/-- 4120 bits without their direction: an outbound block where the CRC position holds the two fillers,
else an inbound block (log 16). -/
def decodeLoneBlock (bytes : List Byte) : Option Instr :=
  match decode .outbound (.wire bytes) with
  | .ok i => some i
  | .error _ => decoded (decode (.inbound blockBytes) (.wire bytes))

/-- The request of a table word of 35 bits, given in whole bytes; its payload lines are 0 (log 17). -/
def tableRequest (w : Nat) : HostRequest := ⟨BitVec.ofNat 35 w, Block.zero⟩

/-- The instruction the decoder reads from a word of the opcode table. The width selects the format:
0 INIT, 8 a byte, 32 an R7, 40 a host request, 48 a frame, 128 a CSD, 152 and 4120 blocks. -/
def decodeTableWord (nbits w : Nat) : Option Instr :=
  if nbits = 0 then decoded (decode .reset .nothing)
  else if nbits = 8 then decodeLoneByte (BitVec.ofNat 8 w)
  else if nbits = 32 then decoded (decode .reply (.wire (tableBytes 4 w)))
  else if nbits = 35 ∨ nbits = 40 then
    if w < 2 ^ 35 then decoded (decode .host (.request (tableRequest w))) else none
  else if nbits = 48 then decoded (decode .command (.wire (tableBytes 6 w)))
  else if nbits = 128 then decoded (decode .register (.wire (tableBytes 16 w)))
  else if nbits = 152 then decoded (decode (.inbound 16) (.wire (tableBytes 19 w)))
  else if nbits = 4120 then decodeLoneBlock (tableBytes 515 w)
  else none

end Sys2Proof
end

