-- ==== Sys2Proof/Machine/State.lean ====
section
/-! DEFINITION. The state of the machine (spec/10_state.md), why a step can stop, and the state after reset. -/

namespace Sys2Proof.Machine

/-! ## Values the state holds -/

/-- The outcome of initialization (R23). -/
inductive InitResult where
  | pending
  | ready
  | notPresent
  | unsupported
  | failed
  deriving DecidableEq, Repr

/-- The Error kinds (R200). -/
inductive ErrorKind where
  | ok
  | io
  | outOfBounds
  | unsupported
  | notWritable
  deriving DecidableEq, Repr

/-- `R1Result` (R10): an R1 byte, whose bit 7 is 0 by type, or `Timeout`. -/
inductive R1Result where
  | answer (bits : BitVec 7)
  | timeout
  deriving DecidableEq, Repr

/-- `phase.top`: the operation in progress (R35). -/
inductive TopPhase where
  | initReset
  | initVoltage
  | initIdleWait
  | initReadReg
  | idle
  | opRead
  | opWrite
  deriving DecidableEq, Repr

/-- `phase.sub`: the control point inside the procedure being run (R35). -/
inductive SubPhase where
  | none
  | cmdReady
  | cmdFrame
  | cmdR1
  | r7Bytes
  | rxToken
  | rxPayload
  | rxCrc
  | txToken
  | txPayload
  | txCrc
  | txResp
  | txBusy
  deriving DecidableEq, Repr

/-- The phase register (R35), with the one more bit of INIT_IDLEWAIT: false while CMD55 is in progress,
true while ACMD41 is. -/
structure Phase where
  top : TopPhase
  sub : SubPhase
  acmd : Bool
  deriving DecidableEq, Repr

/-- `(IDLE, NONE)`. -/
def Phase.idle : Phase := { top := .idle, sub := .none, acmd := false }

/-- The Device State `S` (R20 to R26). -/
structure DeviceState where
  /-- R21 -/
  present : Bool
  /-- R22 -/
  initialized : Bool
  /-- R23 -/
  initResult : InitResult
  /-- R24; 33 bits as the response value of R86 -/
  blockSize : BitVec 33
  /-- R25 -/
  blockCount : Sector
  /-- R26 -/
  position : Sector
  deriving DecidableEq, Repr

/-- What an accepted request gets back (R85, R86, R182). -/
inductive Response where
  /-- the Error of a SEEK or a WRITE, or of a READ that is not Ok (R200) -/
  | status (e : ErrorKind)
  /-- the 512 bytes of a READ whose Error is Ok (R177) -/
  | data (bytes : List Byte)
  /-- the number BLOCKSIZE or BLOCKCOUNT returns (R179, R180) -/
  | number (value : BitVec 33)
  deriving DecidableEq, Repr

/-! ## The card agent (R7, R51) -/

/-- The sector space of the mock card: byte address `512 * sector + offset`, addresses strictly rising,
no entry 0x00, which is what an unlisted address reads as ("default all `00`"). -/
abbrev Memory := List Host.Cell

/-- The write-capture mode of the mock card (95_test_vectors.md section 4). -/
inductive Capture where
  | off
  /-- waiting for the start token of a block for this sector -/
  | waiting (sector : Nat)
  /-- collecting the block for this sector -/
  | collecting (sector : Nat) (bytes : List Byte)
  deriving DecidableEq, Repr

/-- The mock card of 95_test_vectors.md section 4: its parameters and its state. -/
structure Mock where
  csd : Csd
  /-- how many ACMD41 are answered 0x01 -/
  idle : Nat
  /-- fillers before a response -/
  ncr : Nat
  /-- fillers before a start token -/
  nac : Nat
  r7 : Vector Byte 4
  /-- the data response -/
  wresp : Byte
  /-- busy bytes after an accepted block -/
  busy : Nat
  /-- "Variants used above replace one reply": command index and the reply used instead (log 24) -/
  overrides : List (Nat × List Byte)
  /-- the output queue `q` -/
  queue : List Byte
  /-- the frame collector -/
  collected : List Byte
  store : Memory
  /-- the count `a` of ACMD41 frames seen -/
  acmds : Nat
  capture : Capture
  deriving DecidableEq, Repr

/-- Who answers the exchanges (R51). -/
inductive Card where
  /-- the oracle: it answers the listed bytes, then free values (log 3) -/
  | oracle (answers : List Byte)
  /-- a constant card: one fixed byte to every exchange (95_test_vectors.md section 4) -/
  | constant (b : Byte)
  /-- the mock card -/
  | mock (m : Mock)
  deriving DecidableEq, Repr

/-! ## The state -/

/-- The whole machine: the engine (R20 to R37), its parameters (R6), the two other agents (R7), and the
record of the run (R64, R243). -/
structure State where
  /-- the Device State `S` (R20) -/
  dev : DeviceState
  /-- `csd[0..15]` (R30) -/
  csd : Csd
  /-- `r7[0..3]` (R31) -/
  r7 : Vector Byte 4
  /-- `r1` (R32) -/
  r1 : R1Result
  /-- `frame[0..5]` (R33) -/
  frame : Vector Byte 6
  /-- the phase register (R35) -/
  phase : Phase
  /-- exchanges made in the current poll loop (R36) -/
  n : Nat
  /-- byte index inside a fixed-length run (R36) -/
  k : Nat
  /-- IdleWait iterations completed (R36) -/
  it : Nat
  /-- the parameters of this engine (R6), which no step changes (R38 a; log 2) -/
  params : Params
  /-- payload bytes of the inbound block received so far (R34; log 8); empty outside the block, since the engine
  holds no copy of a sector or of the register beyond `csd` (R50, R64; log 30) -/
  rxData : List Byte
  /-- the payload of the WRITE in progress (R34; log 8); none outside a WRITE, since the engine holds no copy of a
  sector (R50, R64; log 30) -/
  txData : Option Block
  /-- the Error the last Receive or Transmit returned to its caller (R150, R154; log 8) -/
  framerResult : ErrorKind
  /-- the card agent (R51; log 3) -/
  card : Card
  /-- exchanges no longer complete (R237, U8; log 19) -/
  stalled : Bool
  /-- what stands on the host request lines now (R86, R182; log 6) -/
  request : Option HostRequest
  /-- the requests a serialising host presents one by one (R234, R243; log 6) -/
  script : List HostRequest
  /-- how many free values have been taken (log 3, log 5, log 31) -/
  draws : Nat
  /-- the event history: (sent, received) pairs, oldest first (R64) -/
  history : List (Byte × Byte)
  /-- the responses delivered, oldest first (R243) -/
  responses : List Response
  deriving DecidableEq, Repr

/-! ## Why a step can stop -/

/-- The machine is stuck. -/
inductive Fault where
  /-- An exchange is due and the serial peripheral no longer completes one: "If `Xchg` does not return,
  the engine takes no further step" (R237, U8). Raised by `step` and by every meaning that makes an
  exchange. Safe: the hardware is stuck there too (log 19). -/
  | exchangeNeverCompletes
  deriving DecidableEq, Repr

/-- The model takes no step. -/
inductive Refusal where
  /-- An instruction that has no meaning yet. Raised by `exec` only. Safe. -/
  | notModelled (mnemonic : String)
  /-- A host request presented while the engine is busy: "it is refused, not queued, not held" (R182,
  R234, U5). Raised by `step` and by the meanings of the five host operations. Safe (log 6). -/
  | requestWhileBusy
  /-- Request codes 6 and 7: "reserved: refused, no state change, no bus activity" (R86, U10). Raised by
  `step`. Safe. -/
  | reservedRequest
  deriving DecidableEq, Repr

/-! ## Reset -/

/-- The state at reset (R39, R231). The spec leaves `blockSize`, `blockCount`, `position`, `csd`, `r7`,
`r1` and `frame` unspecified; the values here are the model's (log 4). -/
def State.reset : State :=
  { dev :=
      { present := false, initialized := false, initResult := .pending
        blockSize := 0#33, blockCount := 0#33, position := 0#33 }
    csd := Vector.replicate 16 0x00#8
    r7 := Vector.replicate 4 0x00#8
    r1 := .answer 0#7
    frame := Vector.replicate 6 0x00#8
    phase := { top := .initReset, sub := .cmdReady, acmd := false }
    n := 0
    k := 0
    it := 0
    params := Config.params
    rxData := []
    txData := none
    framerResult := .ok
    card := .oracle []
    stalled := false
    request := none
    script := []
    draws := 0
    history := []
    responses := [] }

end Sys2Proof.Machine
end

