-- ==== Sys2Proof/Machine/Card.lean ====
section
/-! DEFINITION. The card agent: the oracle of spec/20_memory.md R51, and the two admissible behaviours of
95_test_vectors.md section 4, the mock card and the constant card. Neither is part of the hardware; they
are premises a claim may put on the oracle. -/

namespace Sys2Proof.Machine

/-! ## The sector space of the mock card -/

/-- What an unlisted byte of the store reads as: "default all `00`". -/
def Memory.default : Byte := 0x00#8

/-- The canonical form: addresses strictly rising, no entry equal to the default. -/
def Memory.wf : Memory → Bool
  | [] => true
  | [(_, v)] => v != Memory.default
  | (a, v) :: (b, w) :: m => v != Memory.default && decide (a < b) && Memory.wf ((b, w) :: m)

/-- The byte at an address. -/
def Memory.read : Memory → Nat → Byte
  | [], _ => Memory.default
  | (a, v) :: m, x => if a = x then v else Memory.read m x

/-- A cell in front of a list of cells at higher addresses, unless it holds the default. -/
def Memory.place (a : Nat) (v : Byte) (m : Memory) : Memory :=
  if v = Memory.default then m else (a, v) :: m

/-- Write one byte, keeping the canonical form. -/
def Memory.write : Memory → Nat → Byte → Memory
  | [], x, w => Memory.place x w []
  | (a, v) :: m, x, w =>
    if x < a then Memory.place x w ((a, v) :: m)
    else if x = a then Memory.place x w m
    else (a, v) :: Memory.write m x w

/-- Write bytes at consecutive addresses from `a`, in index order. -/
def Memory.writeBytes (m : Memory) (a : Nat) : List Byte → Memory
  | [] => m
  | b :: bs => Memory.writeBytes (Memory.write m a b) (a + 1) bs

/-- Read `count` bytes from address `a`, in index order. -/
def Memory.readBytes (m : Memory) (a : Nat) (count : Nat) : List Byte :=
  (List.range count).map fun j => Memory.read m (a + j)

/-- The byte address of a sector of 512 bytes (R54, R58). -/
def sectorAddress (sector : Nat) : Nat := sector * blockBytes

/-- Store a block in a sector. -/
def Memory.writeSector (m : Memory) (sector : Nat) (bytes : List Byte) : Memory :=
  Memory.writeBytes m (sectorAddress sector) bytes

/-- The 512 bytes of a sector. -/
def Memory.readSector (m : Memory) (sector : Nat) : List Byte :=
  Memory.readBytes m (sectorAddress sector) blockBytes

/-! ## The mock card (95_test_vectors.md section 4) -/

/-- What the mock answers to a command, and its state after it. -/
def Mock.reply (m : Mock) (index : Nat) (arg : Nat) : List Byte × Mock :=
  match m.overrides.lookup index with
  | some bytes => (bytes, m)
  | none =>
    if index = 0 then ([0x01#8], m)
    else if index = 8 then (0x01#8 :: m.r7.toList, m)
    else if index = 55 then ([if m.acmds < m.idle then 0x01#8 else 0x00#8], m)
    else if index = 41 then
      ([if m.acmds + 1 ≤ m.idle then 0x01#8 else 0x00#8], { m with acmds := m.acmds + 1 })
    else if index = 9 then
      (0x00#8 :: (List.replicate m.nac 0xFF#8 ++ 0xFE#8 :: (m.csd.toList ++ [0xAA#8, 0xBB#8])), m)
    else if index = 17 then
      (0x00#8 :: (List.replicate m.nac 0xFF#8 ++ 0xFE#8 :: (m.store.readSector arg ++ [0x12#8, 0x34#8])), m)
    else if index = 24 then ([0x00#8], { m with capture := .waiting arg })
    else ([0x05#8], m)

/-- A complete frame: the index is `frame[0][5:0]`, the argument `be32(frame[1..4])`. -/
def Mock.command (m : Mock) (frame : List Byte) : Mock :=
  match frame with
  | [b0, b1, b2, b3, b4, _] =>
    let (bytes, m') := m.reply (b0.extractLsb' 0 6).toNat (ofBe32 b1 b2 b3 b4).toNat
    { m' with queue := List.replicate m.ncr 0xFF#8 ++ bytes, collected := [] }
  | _ => m

/-- A byte of a frame: one is being collected, or this byte opens one (`o[7:6] == 0b01`). -/
def Mock.collect (m : Mock) (o : Byte) : Mock :=
  if m.collected ≠ [] ∨ o.extractLsb' 6 2 = 0b01#2 then
    let frame := m.collected ++ [o]
    if frame.length = 6 then m.command frame else { m with collected := frame }
  else m

/-- A byte of a block being written: after 512 data and 2 CRC-position bytes the sector is stored. -/
def Mock.captureByte (m : Mock) (sector : Nat) (bytes : List Byte) (o : Byte) : Mock :=
  let block := bytes ++ [o]
  if block.length = blockBytes + 2 then
    { m with
      store := m.store.writeSector sector (block.take blockBytes)
      capture := .off
      queue := m.wresp :: (if m.wresp &&& 0x1F#8 = 0x05#8 then List.replicate m.busy 0x00#8 else []) }
  else { m with capture := .collecting sector block }

/-- The byte answered "was decided before that exchange's `o` is looked at": the front of the queue, or
0xFF when it is empty; then the mock takes the byte sent. -/
def Mock.answer (m : Mock) (o : Byte) : Byte × Mock :=
  let out := m.queue.headD 0xFF#8
  let m := { m with queue := m.queue.tail }
  match m.capture with
  | .waiting sector =>
    (out, if o = 0xFE#8 then { m with capture := .collecting sector [] } else m)
  | .collecting sector bytes => (out, m.captureByte sector bytes o)
  | .off => (out, m.collect o)

/-- A fresh mock card: empty store, nothing collected. -/
def Mock.fresh (csd : Csd) (idle ncr nac : Nat) (r7 : Vector Byte 4) (wresp : Byte) (busy : Nat)
    (overrides : List (Nat × List Byte)) : Mock :=
  { csd, idle, ncr, nac, r7, wresp, busy, overrides
    queue := [], collected := [], store := [], acmds := 0, capture := .off }

/-! ## Any card -/

/-- The card's answer to the byte `o`, the card after it, and how many free values were taken: any byte
whatever (R51). -/
def Card.answer (c : Card) (draws : Nat) (o : Byte) : Byte × Card × Nat :=
  match c with
  | .oracle [] => (Config.cardByte draws, .oracle [], draws + 1)
  | .oracle (b :: answers) => (b, .oracle answers, draws)
  | .constant b => (b, .constant b, draws)
  | .mock m => ((m.answer o).1, .mock (m.answer o).2, draws)

/-- The canonical form of the card's store, where it has one. -/
def Card.wf : Card → Bool
  | .oracle _ => true
  | .constant _ => true
  | .mock m => m.store.wf

end Sys2Proof.Machine
end

