-- ==== Sys2Proof/Machine/Flags.lean ====
section
/-! DEFINITION. The engine has no condition codes (spec/10_state.md R28). What stands in their place: every
test it makes on a received byte (R169 f) and on a latched result (R115). `isR1` and `isAccepting` stand in
Decode.lean, which needs them too. -/

namespace Sys2Proof.Machine

/-- Ready before a command, not busy after a write: the whole byte is 0xFF (R87, R111, R156). -/
def isReady (b : Byte) : Bool := b == 0xFF#8

/-- The start-token test: the whole byte is 0xFE (R76, R151). -/
def isStartToken (b : Byte) : Bool := b == Config.startToken

/-- `r1 == R1(0x01)`: idle (R74, R115). -/
def R1Result.isIdle (r : R1Result) : Bool := r == .answer 1#7

/-- `r1 == R1(0x00)` (R74, R115). -/
def R1Result.isZero (r : R1Result) : Bool := r == .answer 0#7

/-- `r1 == Timeout` (R115). -/
def R1Result.isTimeout (r : R1Result) : Bool := r == .timeout

/-- The CMD8 reply check: low nibble of byte 2 is 1 and byte 3 is 0xA5 (R75, R132). -/
def replyAccepted (r7 : Vector Byte 4) : Bool :=
  r7[2] &&& 0x0F#8 == 0x01#8 && r7[3] == 0xA5#8

/-- A poll that has now made `n + 1` exchanges is exhausted when it has made RETRY_BUDGET of them (R102).
Written as an inequality, which is the equality of R102 wherever a poll can be (log 11). -/
def pollExhausted (p : Params) (n : Nat) : Bool := decide (p.retryBudget ≤ n + 1)

/-- The IdleWait loop that has now completed `it + 1` iterations is exhausted (R133; log 11). -/
def idleWaitExhausted (p : Params) (it : Nat) : Bool := decide (p.initBudget ≤ it + 1)

/-- A run of `length` bytes whose byte `k` has just been exchanged is complete (R36; log 11). -/
def runComplete (length k : Nat) : Bool := decide (length ≤ k + 1)

/-- A sector at or above the sector count, unsigned on 33 bits (R58, R169 d). -/
def outOfRange (x count : Sector) : Bool := decide (count ≤ x)

end Sys2Proof.Machine
end

