-- ==== Sys2Proof/Machine/Operands.lean ====
section
/-! DEFINITION. Where operands come from: the command a phase sends and its argument (spec/30_encoding.md
R72), the byte each exchange sends (R103), the length of an inbound payload (R84), and the fields of the
CSD (R80, R81, R165 to R168). -/

namespace Sys2Proof.Machine

/-- A command: index 0 to 63 and a 32-bit argument (R33, R71). -/
structure Command where
  index : BitVec 6
  arg : BitVec 32
  deriving DecidableEq, Repr

/-- The six frame bytes of a command (R71). -/
def Command.frame (c : Command) : Vector Byte 6 := commandFrame c.index c.arg

/-- The argument of CMD17 and CMD24: `S.position[31:0]` (R72, R121, R122). -/
def sectorArgument (s : State) : BitVec 32 := s.dev.position.extractLsb' 0 32

/-- The SEEK operand zero-extended to the width of the comparison (R169 d). -/
def seekSector (sector : BitVec 32) : Sector := sector.zeroExtend 33

/-- The command of the operation in progress (R123): the only commands the engine emits, each with the
argument of R72. -/
def commandOf (s : State) : Option Command :=
  match s.phase.top with
  | .initReset => some ⟨0#6, 0#32⟩
  | .initVoltage => some ⟨8#6, cmd8Argument⟩
  | .initIdleWait => some (if s.phase.acmd then ⟨41#6, acmd41Argument⟩ else ⟨55#6, 0#32⟩)
  | .initReadReg => some ⟨9#6, 0#32⟩
  | .opRead => some ⟨17#6, sectorArgument s⟩
  | .opWrite => some ⟨24#6, sectorArgument s⟩
  | .idle => none

/-- The payload length of the inbound block of an operation: 16 after CMD9, 512 after CMD17 (R84). -/
def rxLength (top : TopPhase) : Nat :=
  match top with
  | .initReadReg => 16
  | .initReset | .initVoltage | .initIdleWait | .idle | .opRead | .opWrite => blockBytes

/-- The payload bytes of the WRITE in progress, in index order (R53 d); none outside a WRITE. -/
def payloadBytes (payload : Option Block) : List Byte :=
  match payload with
  | some block => block.val
  | none => []

/-- The byte the engine sends in the next exchange (R103): a frame byte, the start token, a payload byte,
and 0xFF everywhere else. -/
def outByte (s : State) : Byte :=
  match s.phase.sub with
  | .cmdFrame => s.frame.toList.getD s.k Config.fill
  | .txToken => Config.startToken
  | .txPayload => (payloadBytes s.txData).getD s.k Config.fill
  | .txCrc => Config.crcFiller
  | .none | .cmdReady | .cmdR1 | .r7Bytes | .rxToken | .rxPayload | .rxCrc | .txResp | .txBusy =>
    Config.fill

/-! ## The CSD (R80, R81) -/

/-- Structure-version: `csd[0][7:6]` (R80, R166). -/
def csdStructure (csd : Csd) : BitVec 2 := csd[0].extractLsb' 6 2

/-- The capacity field C: `csd[7][5:0]`, `csd[8]`, `csd[9]`, big-endian (R81, R167). -/
def csdCapacity (csd : Csd) : BitVec 22 := csd[7].extractLsb' 0 6 ++ csd[8] ++ csd[9]

/-- `(C + CAP_BIAS) * 1024`, exact in 33 bits (R168, R169 b). -/
def csdCount (p : Params) (csd : Csd) : Sector :=
  BitVec.ofNat 33 (((csdCapacity csd).toNat + p.capBias.val) * 1024)

/-- `CsdDecode(csd)`: the sector count, or none for Unsupported (R165). -/
def csdDecode (p : Params) (csd : Csd) : Option Sector :=
  if csdStructure csd = p.csdHcStruct then some (csdCount p csd) else none

end Sys2Proof.Machine
end

