-- ==== Sys2Proof/Machine/Ops.lean ====
section
/-! DEFINITION. The named operations over the state that the meanings and the sequencer share. -/

namespace Sys2Proof.Machine

/-- The engine is busy exactly when `phase.top != IDLE` (R37). -/
def busy (s : State) : Bool := s.phase.top != .idle

/-! ## Moving the sequencer -/

/-- Go to a control point without touching a counter. -/
def goto (sub : SubPhase) (s : State) : State := { s with phase := { s.phase with sub := sub } }

/-- Start a poll loop: `n` is 0 when it starts (R36, R102). -/
def startPoll (sub : SubPhase) (s : State) : State := { goto sub s with n := 0 }

/-- Start a fixed-length run: `k` is the byte index, from 0 (R36). -/
def startRun (sub : SubPhase) (s : State) : State := { goto sub s with k := 0 }

/-- Enter an operation at the ready poll of its command (R35, R110). -/
def startCommand (top : TopPhase) (acmd : Bool) (s : State) : State :=
  { s with phase := { top := top, sub := .cmdReady, acmd := acmd }, n := 0, k := 0 }

/-- Start `Receive`: the start-token poll (R150, R151). -/
def startReceive (s : State) : State := startPoll .rxToken s

/-- The start token has come: the payload begins, nothing of it received yet (R151, R152). -/
def startPayload (s : State) : State := { startRun .rxPayload s with rxData := [] }

/-- The procedure in progress ends; control is back in its caller. -/
def endProcedure (s : State) : State := goto .none s

/-- The framer procedure in progress ends with this Error (R150, R154). -/
def endFramer (e : ErrorKind) (s : State) : State := { endProcedure s with framerResult := e }

/-! ## Exchanges (R100) -/

/-- The pair of an exchange joins the event history (R64, R100). -/
def record (sent received : Byte) (s : State) : State :=
  { s with history := s.history ++ [(sent, received)] }

/-- The card's answer to the byte the engine is about to send (R51). -/
def cardByte (s : State) : Byte := (s.card.answer s.draws (outByte s)).1

/-- The card after that answer. -/
def cardMoves (s : State) : State :=
  { s with card := (s.card.answer s.draws (outByte s)).2.1
           draws := (s.card.answer s.draws (outByte s)).2.2 }

/-! ## Ending an operation (R182, R208) -/

/-- The number of an Error kind (R200, D30). -/
def ErrorKind.code : ErrorKind → BitVec 3
  | .ok => 0#3
  | .io => 1#3
  | .outOfBounds => 2#3
  | .unsupported => 3#3
  | .notWritable => 4#3

/-- The `err` and `value` lines of a response (R86); `value` is ignored but for the accessors, which have no
Error (log 22). -/
def Response.lines : Response → BitVec 3 × BitVec 33
  | .status e => (e.code, 0#33)
  | .data _ => (ErrorKind.ok.code, 0#33)
  | .number value => (ErrorKind.ok.code, value)

/-- Nothing of a payload survives its operation: "the engine holds no copy of any sector or of any card register
other than the `csd` and `r7` latches" (R50, R64; log 30). -/
def dropPayload (s : State) : State := { s with rxData := [], txData := none }

/-- One response is delivered and the engine is IDLE again (R182). -/
def respond (r : Response) (s : State) : State :=
  { s with responses := s.responses ++ [r], phase := Phase.idle }

/-- `fail(kind)`: what taking an error does. Nothing is saved, nothing is undone, the Device State is
unchanged; the response carries the Error and `phase` returns to (IDLE, NONE) (R10, R208). There is
nothing to return from (R209). -/
def fail (e : ErrorKind) (s : State) : State := respond (.status e) s

/-- `DONE(r)`: initialization ends with this outcome (R35, R130), and the block it may have
received is held no longer (R64). -/
def doneInit (r : InitResult) (s : State) : State :=
  { dropPayload s with dev := { s.dev with initResult := r }, phase := Phase.idle }

/-- `S.position <- S.position + 1` (R169 c, R181). -/
def advancePosition (s : State) : State :=
  { s with dev := { s.dev with position := s.dev.position + 1#33 } }

/-- `S.position <- sector` (R176, R181). -/
def setPosition (sector : Sector) (s : State) : State :=
  { s with dev := { s.dev with position := sector } }

/-- `csd[k] <- data[k]` for k from 0 to 15 (R134). -/
def latchCsd (s : State) : State :=
  if h : s.rxData.length = 16 then { s with csd := ⟨⟨s.rxData⟩, h⟩ } else s

/-- One free value has been taken (log 5, log 31). -/
def countDraw (s : State) : State := { s with draws := s.draws + 1 }

/-- The payload of the WRITE in progress; where none is in progress, a free one: the spec states no payload for a
CMD24 without a WRITE (R122; log 31). -/
def supplyPayload (s : State) : State :=
  match s.txData with
  | some _ => s
  | none => { countDraw s with txData := some (Config.freePayload s.draws) }

/-- A row run from `s` has become `t`: with no operation in progress nothing takes the payload it moved, and the
engine holds no copy of it (R34, R64; log 30). -/
def dropUnclaimed (s t : State) : State :=
  if busy s then t else { t with rxData := s.rxData, txData := s.txData }

/-! ## Outcomes -/

/-- The outcome of something that makes at least one exchange: stuck if exchanges no longer complete
(R237, U8), else the next state. -/
def afterExchanges (s t : State) : Host.Outcome State Fault Refusal :=
  if s.stalled then .fault .exchangeNeverCompletes else .next t

end Sys2Proof.Machine
end

