-- ==== Sys2Proof/Machine/Sequencer.lean ====
section
/-! DEFINITION. The sequencer (spec/10_state.md R35, R36): what one exchange does inside a procedure, what
the caller does when a procedure ends, one engine step (R7), and running a procedure or an operation to its
end. Every procedure of 41_command.md, 42_init.md, 43_data_framer.md and 45_block_store.md is here once. -/

namespace Sys2Proof.Machine

/-! ## Inside a procedure -/

/-- One more exchange of a poll loop (R102): `n` counts it; a hit or exhaustion leaves the loop. -/
def pollStep (hit : Bool) (onHit onExhausted : State → State) (s : State) : State :=
  let t := { s with n := s.n + 1 }
  if hit then onHit t else if pollExhausted s.params s.n then onExhausted t else t

/-- One more byte of a fixed-length run (R36): the last one leaves the run. -/
def runStep (length : Nat) (onComplete : State → State) (s : State) : State :=
  if runComplete length s.k then onComplete s else { s with k := s.k + 1 }

/-- The ready poll: exhaustion is not fatal, the frame follows either way (R111, D8). -/
def reactReady (i : Byte) (s : State) : State :=
  pollStep (isReady i) (startRun .cmdFrame) (startRun .cmdFrame) s

/-- Frame transmit: six bytes, what is received is discarded (R112). -/
def reactFrame (s : State) : State := runStep 6 (startPoll .cmdR1) s

/-- The R1 poll: the first byte with bit 7 clear, or Timeout (R114). -/
def reactR1 (i : Byte) (s : State) : State :=
  pollStep (isR1 i) (fun t => endProcedure { t with r1 := .answer (i.extractLsb' 0 7) })
    (fun t => endProcedure { t with r1 := .timeout }) s

/-- The four reply bytes of CMD8 (R117, R132). -/
def reactReply (i : Byte) (s : State) : State :=
  runStep 4 endProcedure { s with r7 := s.r7.setIfInBounds s.k i }

/-- The start-token poll; exhausted, `Receive` returns IO (R151). -/
def reactToken (i : Byte) (s : State) : State :=
  pollStep (isStartToken i) startPayload (endFramer .io) s

/-- One inbound payload byte, taken verbatim (R152). -/
def reactPayload (length : Nat) (i : Byte) (s : State) : State :=
  runStep length (startRun .rxCrc) { s with rxData := s.rxData ++ [i] }

/-- One of the two discarded CRC bytes; after them `Receive` returns Ok (R153). -/
def reactRxCrc (s : State) : State := runStep 2 (endFramer .ok) s

/-- The start token of an outbound block has been sent (R154). -/
def reactTxToken (s : State) : State := startRun .txPayload s

/-- One outbound payload byte has been sent (R154). -/
def reactTxPayload (s : State) : State := runStep blockBytes (startRun .txCrc) s

/-- One of the two CRC-position fillers has been sent (R154). -/
def reactTxCrc (s : State) : State := runStep 2 (goto .txResp) s

/-- The data-response check: accepted goes on to the busy poll, else `Transmit` returns IO (R155). -/
def reactResponse (i : Byte) (s : State) : State :=
  if isAccepting i then startPoll .txBusy s else endFramer .io s

/-- The post-write busy poll (R156). -/
def reactBusy (i : Byte) (s : State) : State :=
  pollStep (isReady i) (endFramer .ok) (endFramer .io) s

/-- What the procedure in progress does with the byte of one exchange; `length` is the payload length of
an inbound block. When the procedure ends, `sub` is NONE. -/
def react (length : Nat) (i : Byte) (s : State) : State :=
  match s.phase.sub with
  | .none => s
  | .cmdReady => reactReady i s
  | .cmdFrame => reactFrame s
  | .cmdR1 => reactR1 i s
  | .r7Bytes => reactReply i s
  | .rxToken => reactToken i s
  | .rxPayload => reactPayload length i s
  | .rxCrc => reactRxCrc s
  | .txToken => reactTxToken s
  | .txPayload => reactTxPayload s
  | .txCrc => reactTxCrc s
  | .txResp => reactResponse i s
  | .txBusy => reactBusy i s

/-- One exchange of the procedure in progress, `i` being the byte received (R100). -/
def exchange (length : Nat) (i : Byte) (s : State) : State :=
  react length i (record (outByte s) i s)

/-! ## The callers: what an operation does when a procedure returns -/

/-- A procedure that no operation of this phase calls has ended: no run gets here (log 13). -/
def abandon (s : State) : State := { dropPayload s with phase := Phase.idle }

/-- Step 1, Reset: R1 == 1, else NotPresent (R131). -/
def afterReset (s : State) : State :=
  if s.r1.isIdle then startCommand .initVoltage false { s with dev := { s.dev with present := true } }
  else doneInit .notPresent s

/-- Step 2, VoltageCheck, after CMD8: R1 == 1, else Unsupported (R132). -/
def afterInterfaceCondition (s : State) : State :=
  if s.r1.isIdle then startRun .r7Bytes s else doneInit .unsupported s

/-- Step 2, VoltageCheck, after the four reply bytes (R132); IdleWait starts with `it` 0 (R133). -/
def afterReply (s : State) : State :=
  if replyAccepted s.r7 then startCommand .initIdleWait false { s with it := 0 }
  else doneInit .unsupported s

/-- Step 3, IdleWait, after CMD55: only Timeout matters (R118, R133, D11). -/
def afterPrefix (s : State) : State :=
  if s.r1.isTimeout then doneInit .failed s else startCommand .initIdleWait true s

/-- Step 3, IdleWait, after ACMD41 (R133). -/
def afterIdleWait (s : State) : State :=
  if s.r1.isTimeout then doneInit .failed s
  else if !s.r1.isIdle then startCommand .initReadReg false { s with it := s.it + 1 }
  else if idleWaitExhausted s.params s.it then doneInit .failed { s with it := s.it + 1 }
  else startCommand .initIdleWait false { s with it := s.it + 1 }

/-- Step 4, ReadRegister, after CMD9: R1 == 0, else Failed (R134, D10). -/
def afterReadRegister (s : State) : State :=
  if s.r1.isZero then startReceive s else doneInit .failed s

/-- Step 5, Ready (R136). -/
def becomeReady (count : Sector) (s : State) : State :=
  doneInit .ready
    { s with
      dev :=
        { s.dev with
          initialized := true
          blockSize := BitVec.ofNat 33 blockBytes
          blockCount := count
          position := s.params.readyPosition } }

/-- Step 4, ReadRegister, once the register is in the latch: the structure check, then the capacity and
step 5 (R134, R135, R165). -/
def decodeRegisterLatch (s : State) : State :=
  match csdDecode s.params s.csd with
  | none => doneInit .unsupported s
  | some count => becomeReady count s

/-- Step 4, ReadRegister, after `Receive(16)`: a missing token is Failed (R134, D10). -/
def afterRegisterBlock (s : State) : State :=
  if s.framerResult = .ok then decodeRegisterLatch (latchCsd s) else doneInit .failed s

/-- READ, after CMD17: R1 == 0 else IO (R177). -/
def afterReadCommand (s : State) : State :=
  if s.r1.isZero then startReceive s else fail .io (dropPayload s)

/-- READ, after `Receive(512)`: the cursor moves and the bytes are delivered, or IO (R177); the engine keeps no
copy (R64). -/
def afterReadBlock (s : State) : State :=
  if s.framerResult = .ok then respond (.data s.rxData) (dropPayload (advancePosition s))
  else fail .io (dropPayload s)

/-- WRITE, after CMD24: R1 == 0 else IO, and then no data byte is sent (R178). -/
def afterWriteCommand (s : State) : State :=
  if s.r1.isZero then goto .txToken s else fail .io (dropPayload s)

/-- WRITE, after `Transmit`: the cursor moves, or IO (R178, D16); the engine keeps no copy (R64). -/
def afterWriteBlock (s : State) : State :=
  if s.framerResult = .ok then respond (.status .ok) (dropPayload (advancePosition s))
  else fail .io (dropPayload s)

/-- `sendCommand` has returned to the operation in progress. -/
def afterCommand (s : State) : State :=
  match s.phase.top with
  | .initReset => afterReset s
  | .initVoltage => afterInterfaceCondition s
  | .initIdleWait => if s.phase.acmd then afterIdleWait s else afterPrefix s
  | .initReadReg => afterReadRegister s
  | .opRead => afterReadCommand s
  | .opWrite => afterWriteCommand s
  | .idle => abandon s

/-- `Receive` has returned to the operation in progress. -/
def afterReceive (s : State) : State :=
  match s.phase.top with
  | .initReadReg => afterRegisterBlock s
  | .opRead => afterReadBlock s
  | .initReset | .initVoltage | .initIdleWait | .opWrite | .idle => abandon s

/-- `Transmit` has returned to the operation in progress. -/
def afterTransmit (s : State) : State :=
  match s.phase.top with
  | .opWrite => afterWriteBlock s
  | .initReset | .initVoltage | .initIdleWait | .initReadReg | .opRead | .idle => abandon s

/-- The reply bytes of CMD8 have been read. -/
def afterReplyBytes (s : State) : State :=
  match s.phase.top with
  | .initVoltage => afterReply s
  | .initReset | .initIdleWait | .initReadReg | .opRead | .opWrite | .idle => abandon s

/-- The procedure that was at control point `sub` has ended: its caller goes on. -/
def returnFrom (sub : SubPhase) (s : State) : State :=
  match sub with
  | .cmdReady | .cmdFrame | .cmdR1 => afterCommand s
  | .r7Bytes => afterReplyBytes s
  | .rxToken | .rxPayload | .rxCrc => afterReceive s
  | .txToken | .txPayload | .txCrc | .txResp | .txBusy => afterTransmit s
  | .none => abandon s

/-! ## One engine step (R7) -/

/-- "Written at the start of every `sendCommand`" (R33): the frame is latched with the first exchange of
the ready poll (log 9). -/
def latchFrame (s : State) : State :=
  if s.phase.sub = .cmdReady ∧ s.n = 0 then
    match commandOf s with
    | some c => { s with frame := c.frame }
    | none => s
  else s

/-- One engine step of a busy engine, `i` being the byte received: "the engine's next step is a function
of its own state and of `i` only" (R51). An IDLE engine makes no exchange (R216). -/
def engineStep (i : Byte) (s : State) : State :=
  if busy s then
    let t := exchange (rxLength s.phase.top) i (latchFrame s)
    if t.phase.sub = .none then returnFrom s.phase.sub t else t
  else s

/-- One engine step against the card. -/
def tick (s : State) : State :=
  if busy s then engineStep (cardByte s) (cardMoves s) else s

/-- Several bytes answered by the card, each to one exchange. -/
def deliver (bytes : List Byte) (s : State) : State := bytes.foldl (fun s b => engineStep b s) s

/-! ## Bounds (R238) and running to the end -/

/-- RETRY_BUDGET as the length of a poll: at least one exchange (R102). -/
def budget (p : Params) : Nat := max 1 p.retryBudget

/-- Exchanges a poll loop may still make. -/
def pollLeft (s : State) : Nat := max 1 (s.params.retryBudget - s.n)

/-- Exchanges a fixed-length run still makes. -/
def runLeft (length : Nat) (s : State) : Nat := max 1 (length - s.k)

/-- Most exchanges of a command (R110). -/
def commandBound (p : Params) : Nat := budget p + 6 + budget p

/-- Exchanges the procedure in progress may still make. -/
def procedureLeft (length : Nat) (s : State) : Nat :=
  match s.phase.sub with
  | .none => 0
  | .cmdReady => pollLeft s + 6 + budget s.params
  | .cmdFrame => runLeft 6 s + budget s.params
  | .cmdR1 => pollLeft s
  | .r7Bytes => runLeft 4 s
  | .rxToken => pollLeft s + max 1 length + 2
  | .rxPayload => runLeft length s + 2
  | .rxCrc => runLeft 2 s
  | .txToken => 1 + blockBytes + 2 + 1 + budget s.params
  | .txPayload => runLeft blockBytes s + 2 + 1 + budget s.params
  | .txCrc => runLeft 2 s + 1 + budget s.params
  | .txResp => 1 + budget s.params
  | .txBusy => pollLeft s

/-- Most exchanges of `Receive(length)` (R157). -/
def receiveBound (length : Nat) (p : Params) : Nat := budget p + length + 2

/-- Most exchanges of step 4 (R139). -/
def readRegBound (p : Params) : Nat := commandBound p + receiveBound 16 p

/-- Most exchanges of `iterations` IdleWait iterations and of what follows them (R139). -/
def idleWaitBound (iterations : Nat) (p : Params) : Nat :=
  iterations * (2 * commandBound p) + readRegBound p

/-- IdleWait iterations still possible, the one in progress included (R133). -/
def iterationsLeft (s : State) : Nat := max 1 (s.params.initBudget - s.it)

/-- Whether the control point is one of `sendCommand`. -/
def SubPhase.inCommand : SubPhase → Bool
  | .cmdReady | .cmdFrame | .cmdR1 => true
  | .none | .r7Bytes | .rxToken | .rxPayload | .rxCrc => false
  | .txToken | .txPayload | .txCrc | .txResp | .txBusy => false

/-- Exchanges the operation may make after the procedure in progress. -/
def operationLeft (s : State) : Nat :=
  match s.phase.top with
  | .idle => 0
  | .initReset =>
    if s.phase.sub.inCommand then
      commandBound s.params + 4 + idleWaitBound (max 1 s.params.initBudget) s.params
    else 0
  | .initVoltage =>
    if s.phase.sub.inCommand then 4 + idleWaitBound (max 1 s.params.initBudget) s.params
    else if s.phase.sub = .r7Bytes then idleWaitBound (max 1 s.params.initBudget) s.params
    else 0
  | .initIdleWait =>
    if s.phase.sub.inCommand then
      (if s.phase.acmd then 0 else commandBound s.params) + idleWaitBound (iterationsLeft s - 1) s.params
    else 0
  | .initReadReg => if s.phase.sub.inCommand then receiveBound 16 s.params else 0
  | .opRead => if s.phase.sub.inCommand then receiveBound blockBytes s.params else 0
  | .opWrite =>
    if s.phase.sub.inCommand then 1 + blockBytes + 2 + 1 + budget s.params else 0

/-- Most exchanges before the engine is IDLE: the bounds of R238. -/
def exchangesLeft (s : State) : Nat :=
  if busy s then max 1 (procedureLeft (rxLength s.phase.top) s) + operationLeft s else 0

/-- Engine steps until IDLE, at most `fuel` of them. -/
def runSteps (fuel : Nat) (s : State) : State :=
  match fuel with
  | 0 => s
  | fuel + 1 => if busy s then runSteps fuel (tick s) else s

/-- Run the operation in progress to its end: every wait is bounded, so the bound of R238 suffices. -/
def finish (s : State) : State := runSteps (exchangesLeft s) s

/-- One exchange of the procedure in progress against the card, its caller left aside. -/
def procedureTick (length : Nat) (s : State) : State := exchange length (cardByte s) (cardMoves s)

/-- Exchanges of the procedure in progress until it ends, at most `fuel` of them. -/
def procedureSteps (length : Nat) (fuel : Nat) (s : State) : State :=
  match fuel with
  | 0 => s
  | fuel + 1 =>
    if s.phase.sub = .none then s else procedureSteps length fuel (procedureTick length s)

/-- Run the procedure in progress to its end. -/
def finishProcedure (length : Nat) (s : State) : State :=
  procedureSteps length (procedureLeft length s) s

/-! ## The procedures as such (R110, R150, R154) -/

/-- `sendCommand(index, arg)`: frame, ready poll, frame transmit, R1 poll; the result is in `r1` (R110). -/
def sendCommand (c : Command) (s : State) : State :=
  finishProcedure blockBytes { startRun .cmdReady (startPoll .cmdReady s) with frame := c.frame }

/-- The four reply bytes after the R1 of CMD8 (R117). -/
def readReply (s : State) : State := finishProcedure blockBytes (startRun .r7Bytes s)

/-- `Receive(length)`: the result is in `framerResult` and `rxData` (R150). -/
def receive (length : Nat) (s : State) : State := finishProcedure length (startReceive s)

/-- `Transmit(txData)`: the result is in `framerResult` (R154). -/
def transmit (s : State) : State := finishProcedure blockBytes (goto .txToken s)

end Sys2Proof.Machine
end

