-- ==== Sys2Proof/Machine/Commands.lean ====
section
/-! DEFINITION. The seven commands the engine emits (spec/41_command.md R116 to R122). A meaning is the
command rule's own pseudocode: what it leaves in `r1`, `r7`, `rxData`, `framerResult` is what its caller in
the sequencer then decides on; "Errors: none of its own" (log 14). With no operation in progress there is no
caller, and the payload is dropped (log 30). -/

namespace Sys2Proof.Machine

/-- CMD0: `r1 <- sendCommand(0, 0x00000000)` (R116). -/
def execCmd0 (s : State) : Host.Outcome State Fault Refusal :=
  afterExchanges s (sendCommand ⟨0#6, 0#32⟩ s)

/-- CMD8: `r1 <- sendCommand(8, 0x000001A5)`; only if `r1 == R1(0x01)`, the four reply bytes (R117). -/
def execCmd8 (s : State) : Host.Outcome State Fault Refusal :=
  let t := sendCommand ⟨8#6, cmd8Argument⟩ s
  afterExchanges s (if t.r1.isIdle then readReply t else t)

/-- CMD9: `r1 <- sendCommand(9, 0x00000000)`; only if `r1 == R1(0x00)`, `Receive(16)` (R120). -/
def execCmd9 (s : State) : Host.Outcome State Fault Refusal :=
  let t := sendCommand ⟨9#6, 0#32⟩ s
  afterExchanges s (dropUnclaimed s (if t.r1.isZero then receive 16 t else t))

/-- CMD17: `r1 <- sendCommand(17, sector)`; only if `r1 == R1(0x00)`, `Receive(512)` (R121). -/
def execCmd17 (sector : BitVec 32) (s : State) : Host.Outcome State Fault Refusal :=
  let t := sendCommand ⟨17#6, sector⟩ s
  afterExchanges s (dropUnclaimed s (if t.r1.isZero then receive blockBytes t else t))

/-- CMD24: `r1 <- sendCommand(24, sector)`; only if `r1 == R1(0x00)`, `Transmit(d)` with the payload of the
WRITE in progress (R122). The payload is no operand of the row: outside a WRITE it is a free value (log 31),
and the engine holds no copy of it afterwards (R64; log 30). -/
def execCmd24 (sector : BitVec 32) (s : State) : Host.Outcome State Fault Refusal :=
  let t := sendCommand ⟨24#6, sector⟩ s
  afterExchanges s (if t.r1.isZero then { transmit (supplyPayload t) with txData := s.txData } else t)

/-- ACMD41: `r1 <- sendCommand(41, 0x40000000)` (R119). -/
def execAcmd41 (s : State) : Host.Outcome State Fault Refusal :=
  afterExchanges s (sendCommand ⟨41#6, acmd41Argument⟩ s)

/-- CMD55: `a <- sendCommand(55, 0x00000000)` (R118). -/
def execCmd55 (s : State) : Host.Outcome State Fault Refusal :=
  afterExchanges s (sendCommand ⟨55#6, 0#32⟩ s)

end Sys2Proof.Machine
end

