-- ==== Sys2Proof/Machine/Facade.lean ====
section
/-! DEFINITION. The Block Store Facade (spec/45_block_store.md R175 to R182): the acceptance of each host
operation, and its whole effect. -/

namespace Sys2Proof.Machine

/-! ## Acceptance: the checks made on engine state alone, in the order of R207 -/

/-- SEEK: zero exchanges, ever (R176). -/
def startSeek (sector : BitVec 32) (s : State) : State :=
  if !s.dev.initialized then fail .io s
  else if outOfRange (seekSector sector) s.dev.blockCount then fail .outOfBounds s
  else respond (.status .ok) (setPosition (seekSector sector) s)

/-- READ: the preconditions, then CMD17 begins (R175, R177). -/
def startRead (s : State) : State :=
  if !s.dev.initialized then fail .io s
  else if outOfRange s.dev.position s.dev.blockCount then fail .outOfBounds s
  else startCommand .opRead false s

/-- WRITE: the preconditions with NotWritable second, then CMD24 begins (R175, R178, R204, R207). -/
def startWrite (payload : Block) (s : State) : State :=
  if !s.dev.initialized then fail .io s
  else if !s.params.writeEnable then fail .notWritable s
  else if outOfRange s.dev.position s.dev.blockCount then fail .outOfBounds s
  else startCommand .opWrite false { s with txData := some payload }

/-- BLOCKSIZE: `S.blockSize`; without a successful initialization any value (R179, U1; log 5). -/
def startBlockSize (s : State) : State :=
  if s.dev.initialized then respond (.number s.dev.blockSize) s
  else respond (.number (Config.freeBlockSize s.draws)) (countDraw s)

/-- BLOCKCOUNT: `S.blockCount`; without a successful initialization any value (R180, U1; log 5). -/
def startBlockCount (s : State) : State :=
  if s.dev.initialized then respond (.number s.dev.blockCount) s
  else respond (.number (Config.freeBlockCount s.draws)) (countDraw s)

/-! ## The whole operation -/

/-- An operation that has been accepted in `s` and has become `t`: it is over, or it runs to its
response (R182). -/
def complete (s t : State) : Host.Outcome State Fault Refusal :=
  if busy t then afterExchanges s (finish t) else .next t

/-- A request is accepted only when the engine is IDLE (R182, R234). -/
def whenIdle (s : State) (o : Host.Outcome State Fault Refusal) : Host.Outcome State Fault Refusal :=
  if busy s then .refused .requestWhileBusy else o

/-- SEEK (R176). -/
def execSeek (sector : BitVec 32) (s : State) : Host.Outcome State Fault Refusal :=
  whenIdle s (complete s (startSeek sector s))

/-- READ (R177). -/
def execRead (s : State) : Host.Outcome State Fault Refusal := whenIdle s (complete s (startRead s))

/-- WRITE (R178). -/
def execWrite (payload : Block) (s : State) : Host.Outcome State Fault Refusal :=
  whenIdle s (complete s (startWrite payload s))

/-- BLOCKSIZE (R179). -/
def execBlocksize (s : State) : Host.Outcome State Fault Refusal :=
  whenIdle s (complete s (startBlockSize s))

/-- BLOCKCOUNT (R180). -/
def execBlockcount (s : State) : Host.Outcome State Fault Refusal :=
  whenIdle s (complete s (startBlockCount s))

end Sys2Proof.Machine
end

