-- ==== Sys2Proof/Machine/Formats.lean ====
section
/-! DEFINITION. The wire formats of spec/30_encoding.md as events on the bus. A card-to-engine format is the
card putting these bytes on the bus in the next exchanges; what they do is what the phase makes of them,
"every byte value has a defined effect in every phase" (R83). An IDLE engine makes no exchange, so nothing
reaches it (R216; log 15). -/

namespace Sys2Proof.Machine

/-- The card answers these bytes to the next exchanges of a busy engine. -/
def receiveBytes (bytes : List Byte) (s : State) : Host.Outcome State Fault Refusal :=
  if busy s then afterExchanges s (deliver bytes s) else .next s

/-- R1: in an R1 poll, the R1 of the command (R74, R114). -/
def execR1 (bits : BitVec 7) (s : State) : Host.Outcome State Fault Refusal :=
  receiveBytes [r1Byte bits] s

/-- R7: after the R1 of CMD8, the four reply bytes and the check on them (R75, R132). -/
def execR7 (b0 b1 b2 b3 : Byte) (s : State) : Host.Outcome State Fault Refusal :=
  receiveBytes [b0, b1, b2, b3] s

/-- START: sent by the engine in front of an outbound payload, else received; it ends a start-token poll
(R76, R151, R154). -/
def execStart (s : State) : Host.Outcome State Fault Refusal :=
  if busy s then
    afterExchanges s (if s.phase.sub = .txToken then tick s else engineStep Config.startToken s)
  else .next s

/-- DRESP_ACCEPT: after an outbound block, the block is accepted and the busy poll begins (R77, R155). -/
def execDrespAccept (ignored : BitVec 3) (s : State) : Host.Outcome State Fault Refusal :=
  receiveBytes [acceptByte ignored] s

/-- READY: ends the ready poll before a command and the busy poll after a write (R87, R111, R156). -/
def execReady (s : State) : Host.Outcome State Fault Refusal := receiveBytes [0xFF#8] s

/-- RXBLOCK: in a start-token poll, a whole inbound block: token, payload, two discarded bytes (R78). -/
def execRxblock (payload : List Byte) (crc0 crc1 : Byte) (s : State) :
    Host.Outcome State Fault Refusal :=
  receiveBytes (inboundBytes payload crc0 crc1) s

/-- TXBLOCK: the engine sends the token, the 512 bytes and the two fillers, 515 exchanges, and is then at
the data-response byte (R79, R154). With no operation in progress the engine holds no copy of it (R64; log 30). -/
def execTxblock (payload : Block) (s : State) : Host.Outcome State Fault Refusal :=
  afterExchanges s (dropUnclaimed s
    (procedureSteps blockBytes (1 + blockBytes + 2) (goto .txToken { s with txData := some payload })))

/-- The CRC position of a block whose last payload byte has arrived: two exchanges, whatever the card
answers (R153). -/
def discardCrc (s : State) : State :=
  if s.phase.sub = .rxCrc then
    let t := tick s
    if t.phase.sub = .rxCrc then tick t else t
  else s

/-- CSD: in the payload of the block that CMD9 asked for, the sixteen bytes of the register; after the two
CRC-position bytes it is latched and decoded (R80, R134, R135). -/
def execCsd (register : Csd) (s : State) : Host.Outcome State Fault Refusal :=
  if busy s then afterExchanges s (discardCrc (deliver register.toList s)) else .next s

end Sys2Proof.Machine
end

