-- ==== Sys2Proof/Machine/Init.lean ====
section
/-! DEFINITION. INIT as a whole (spec/42_init.md R130): it starts by itself, runs once and ends in one of
four outcomes. Its steps are in Sequencer.lean. -/

namespace Sys2Proof.Machine

/-- The phases of INIT (R35). -/
def TopPhase.inInit : TopPhase → Bool
  | .initReset | .initVoltage | .initIdleWait | .initReadReg => true
  | .idle | .opRead | .opWrite => false

/-- INIT: from wherever it is, to its end. Once it has ended nothing starts it again: "there is no
re-initialization path" (R130, R137; log 26). -/
def execInit (s : State) : Host.Outcome State Fault Refusal :=
  if s.phase.top.inInit then afterExchanges s (finish s) else .next s

end Sys2Proof.Machine
end

