-- ==== Sys2Proof/Machine/Dispatch.lean ====
section
/-! DEFINITION. The meaning of every row of the opcode table. -/

namespace Sys2Proof.Machine

def exec (i : Instr) (s : State) : Host.Outcome State Fault Refusal :=
  match i with
  -- commands (41_command.md)
  | .cmd0 => Sys2Proof.Machine.execCmd0 s
  | .cmd8 => Sys2Proof.Machine.execCmd8 s
  | .cmd9 => Sys2Proof.Machine.execCmd9 s
  | .cmd17 sector => Sys2Proof.Machine.execCmd17 sector s
  | .cmd24 sector => Sys2Proof.Machine.execCmd24 sector s
  | .acmd41 => Sys2Proof.Machine.execAcmd41 s
  | .cmd55 => Sys2Proof.Machine.execCmd55 s
  -- wire formats (30_encoding.md)
  | .r1 bits => Sys2Proof.Machine.execR1 bits s
  | .r7 b0 b1 b2 b3 => Sys2Proof.Machine.execR7 b0 b1 b2 b3 s
  | .start => Sys2Proof.Machine.execStart s
  | .drespAccept ignored => Sys2Proof.Machine.execDrespAccept ignored s
  | .ready => Sys2Proof.Machine.execReady s
  | .rxblock payload crc0 crc1 => Sys2Proof.Machine.execRxblock payload crc0 crc1 s
  | .txblock payload => Sys2Proof.Machine.execTxblock payload s
  | .csd register => Sys2Proof.Machine.execCsd register s
  -- host operations (45_block_store.md)
  | .seek sector => Sys2Proof.Machine.execSeek sector s
  | .read => Sys2Proof.Machine.execRead s
  | .write payload => Sys2Proof.Machine.execWrite payload s
  | .blocksize => Sys2Proof.Machine.execBlocksize s
  | .blockcount => Sys2Proof.Machine.execBlockcount s
  -- initialization (42_init.md)
  | .init => Sys2Proof.Machine.execInit s

end Sys2Proof.Machine
end

