-- ==== Sys2Proof/Machine/Fetch.lean ====
section
/-! DEFINITION. Where the engine's next work comes from: the request lines and the host's script when it is
IDLE (spec/45_block_store.md R182), the operation in progress when it is busy. -/

namespace Sys2Proof.Machine

/-- The request presented now: code 0 is no request (R86, U10). -/
def presented (s : State) : Option HostRequest :=
  match s.request with
  | some r => if r.op = 0#3 then none else some r
  | none => none

/-- The acceptance of a host operation (R182). The other rows are no host requests. -/
def startRequest (i : Instr) (s : State) : State :=
  match i with
  | .seek sector => startSeek sector s
  | .read => startRead s
  | .write payload => startWrite payload s
  | .blocksize => startBlockSize s
  | .blockcount => startBlockCount s
  | .cmd0 | .cmd8 | .cmd9 | .cmd17 _ | .cmd24 _ | .acmd41 | .cmd55 => s
  | .r1 _ | .r7 _ _ _ _ | .start | .drespAccept _ | .ready => s
  | .rxblock _ _ _ | .txblock _ | .csd _ => s
  | .init => s

/-- One engine step of a busy engine: one exchange (R7), unless exchanges no longer complete (R237). -/
def busyStep (s : State) : Host.Outcome State Fault Refusal := afterExchanges s (tick s)

/-- The engine step that accepts a host operation: without bus activity it is the whole operation, else it
makes the first exchange ("Each bus exchange is one engine step; an operation that makes no exchange is one
engine step", R7; log 10). -/
def acceptStep (i : Instr) (s : State) : Host.Outcome State Fault Refusal :=
  let t := startRequest i s
  if busy t then busyStep t else .next t

/-- A request word meets an IDLE engine: code 0 is no request, codes 6 and 7 are refused (R86, U10). -/
def accept (r : HostRequest) (s : State) : Host.Outcome State Fault Refusal :=
  match decodeRequest r with
  | .ok i => acceptStep i s
  | .error .noRequest => .next s
  | .error _ => .refused .reservedRequest

/-- An IDLE engine with nothing on the request lines: the serialising host presents its next request, and
without one nothing happens (R216, R234). -/
def idleStep (s : State) : Host.Outcome State Fault Refusal :=
  match s.script with
  | [] => .next s
  | r :: rest => accept r { s with script := rest }

/-! ## Placing a word of the opcode table as the next work (log 18)

What was in progress is given up, its payload with it (R64). -/

/-- The engine at a control point, the card about to answer these bytes, no request on the lines. -/
def atPhase (top : TopPhase) (sub : SubPhase) (acmd : Bool) (answers : List Byte) (s : State) : State :=
  { dropPayload s with
    phase := { top := top, sub := sub, acmd := acmd }, n := 0, k := 0
    card := .oracle answers, request := none }

/-- The engine about to send the command of an operation. -/
def atCommand (top : TopPhase) (acmd : Bool) (s : State) : State :=
  { startCommand top acmd (dropPayload s) with request := none }

/-- An IDLE engine with this request on the lines. -/
def atRequest (r : HostRequest) (s : State) : State :=
  { dropPayload s with phase := Phase.idle, request := some r }

/-- The sector that CMD17 or CMD24 is to send stands in the cursor (R121, R122). -/
def withSector (sector : BitVec 32) (s : State) : State := setPosition (seekSector sector) s

/-- The state in which an instruction is the engine's next work. The WRITE that a CMD24 or a
DRESP_ACCEPT placed alone stands in has a free payload (log 31). -/
def placeInstr (i : Instr) (s : State) : State :=
  match i with
  | .cmd0 => atCommand .initReset false s
  | .cmd8 => atCommand .initVoltage false s
  | .cmd9 => atCommand .initReadReg false s
  | .cmd17 sector => atCommand .opRead false (withSector sector s)
  | .cmd24 sector => supplyPayload (atCommand .opWrite false (withSector sector s))
  | .acmd41 => atCommand .initIdleWait true s
  | .cmd55 => atCommand .initIdleWait false s
  | .r1 bits => atPhase .initReset .cmdR1 false [r1Byte bits] s
  | .r7 b0 b1 b2 b3 => atPhase .initVoltage .r7Bytes false [b0, b1, b2, b3] s
  | .start => atPhase .initReadReg .rxToken false [Config.startToken] s
  | .drespAccept ignored => supplyPayload (atPhase .opWrite .txResp false [acceptByte ignored] s)
  | .ready => atPhase .initReset .cmdReady false [0xFF#8] s
  | .rxblock payload crc0 crc1 =>
    atPhase (if payload.length = 16 then .initReadReg else .opRead) .rxToken false
      (inboundBytes payload crc0 crc1) s
  | .txblock payload => { atPhase .opWrite .txToken false [] s with txData := some payload }
  | .csd register => atPhase .initReadReg .rxPayload false register.toList s
  | .seek sector => atRequest ⟨requestWord 1#3 sector, Block.zero⟩ s
  | .read => atRequest ⟨requestWord 2#3 0#32, Block.zero⟩ s
  | .write payload => atRequest ⟨requestWord 3#3 0#32, payload⟩ s
  | .blocksize => atRequest ⟨requestWord 4#3 0#32, Block.zero⟩ s
  | .blockcount => atRequest ⟨requestWord 5#3 0#32, Block.zero⟩ s
  | .init => { atCommand .initReset false s with it := 0 }

/-- A table word as the next work; a word the decoder refuses changes nothing. -/
def placeTableWord (nbits w : Nat) (s : State) : State :=
  match decodeTableWord nbits w with
  | some i => placeInstr i s
  | none => s

end Sys2Proof.Machine
end

