-- ==== Sys2Proof/Machine/Step.lean ====
section
/-! DEFINITION. One step of the machine: one engine step in the sense of spec/00_scope.md R7. -/

namespace Sys2Proof.Machine

/-- One step. A request on the lines of a busy engine is refused (R182, U5); a busy engine makes one
exchange (R7); an IDLE engine accepts the request on its lines, else the host's next one. -/
def step (s : State) : Host.Outcome State Fault Refusal :=
  match presented s with
  | some r => if busy s then .refused .requestWhileBusy else accept r { s with request := none }
  | none => if busy s then busyStep s else idleStep s

/-- The state whose next step works on this word of the opcode table (log 16, log 17, log 18). -/
def State.withFetchWord (s : State) (nbits w : Nat) : State := placeTableWord nbits w s

end Sys2Proof.Machine
end

