-- ==== Sys2Proof/Safety.lean ====
section
/-! DEFINITION. The terms claims are made in: what a poll receives, which phases are legal, what holds of
every state of a run, and what a run is. -/

namespace Sys2Proof.Machine

/-! ## What a poll receives (spec/40_bus_transport.md R102) -/

/-- The bytes of a poll that ends with a hit: all but the last fail the test, the last passes it, and there
are at most `budget` of them. -/
def PollHit (budget : Nat) (test : Byte → Bool) (bytes : List Byte) : Prop :=
  ∃ misses hit, bytes = misses ++ [hit] ∧ (∀ b ∈ misses, test b = false) ∧ test hit = true ∧
    bytes.length ≤ budget

/-- The bytes of an exhausted poll: `budget` of them, all failing the test. -/
def PollMiss (budget : Nat) (test : Byte → Bool) (bytes : List Byte) : Prop :=
  bytes.length = budget ∧ ∀ b ∈ bytes, test b = false

/-- The bytes of a ready poll: it goes on either way (R111). -/
def ReadyPoll (budget : Nat) (bytes : List Byte) : Prop :=
  PollHit budget isReady bytes ∨ PollMiss budget isReady bytes

/-- The bytes of an R1 poll that is answered: bytes with bit 7 set, then the R1, within the budget (R114). -/
def R1Answer (budget : Nat) (bits : BitVec 7) (bytes : List Byte) : Prop :=
  ∃ misses, bytes = misses ++ [r1Byte bits] ∧ (∀ b ∈ misses, isR1 b = false) ∧ bytes.length ≤ budget

/-- The pairs of exchanges that send the filler (R103). -/
def received (bytes : List Byte) : List (Byte × Byte) := bytes.map fun b => (Config.fill, b)

/-- The exchanges of a command: ready poll, frame, R1 poll (R110). -/
def commandPairs (frame : Vector Byte 6) (ready frameIn r1In : List Byte) : List (Byte × Byte) :=
  received ready ++ frame.toList.zip frameIn ++ received r1In

/-- The exchanges of an outbound block up to the second filler (R154). -/
def blockPairs (payload : Block) (blockIn : List Byte) : List (Byte × Byte) :=
  (outboundBytes payload).zip blockIn

/-- What a command leaves behind: its frame, its result, the bytes exchanged, `n` and `k` wherever the run
of the procedure left them, no procedure in progress (R110; log 12, log 14). -/
def commandEnds (frame : Vector Byte 6) (r1 : R1Result) (pairs : List (Byte × Byte)) (rest : List Byte)
    (n k : Nat) (s : State) : State :=
  { s with
    phase := { s.phase with sub := .none }, frame := frame, r1 := r1, card := .oracle rest, n := n, k := k
    history := s.history ++ pairs }

/-! ## Legal phases (spec/10_state.md R35) -/

/-- The pairs `(top, sub)` of R35 that the operations use: `sendCommand` in every operation, the reply bytes
in VoltageCheck, `Receive` in ReadRegister and READ, `Transmit` in WRITE, NONE in IDLE. -/
def Phase.legal (p : Phase) : Bool :=
  match p.top with
  | .idle => p.sub == .none
  | .initReset => p.sub.inCommand
  | .initVoltage => p.sub.inCommand || p.sub == .r7Bytes
  | .initIdleWait => p.sub.inCommand
  | .initReadReg | .opRead =>
    p.sub.inCommand || p.sub == .rxToken || p.sub == .rxPayload || p.sub == .rxCrc
  | .opWrite =>
    p.sub.inCommand || p.sub == .txToken || p.sub == .txPayload || p.sub == .txCrc ||
      p.sub == .txResp || p.sub == .txBusy

/-- The control points that poll. -/
def SubPhase.polls : SubPhase → Bool
  | .cmdReady | .cmdR1 | .rxToken | .txBusy => true
  | .none | .cmdFrame | .r7Bytes | .rxPayload | .rxCrc => false
  | .txToken | .txPayload | .txCrc | .txResp => false

/-- The control points of `Receive` and `Transmit`. -/
def SubPhase.inData : SubPhase → Bool
  | .rxToken | .rxPayload | .rxCrc | .txToken | .txPayload | .txCrc | .txResp | .txBusy => true
  | .none | .cmdReady | .cmdFrame | .cmdR1 | .r7Bytes => false

/-- The length of the fixed-length run of a control point, 0 where it has none (R35). -/
def SubPhase.runLength (sub : SubPhase) (top : TopPhase) : Nat :=
  match sub with
  | .cmdFrame => 6
  | .r7Bytes => 4
  | .rxPayload => rxLength top
  | .rxCrc | .txCrc => 2
  | .txPayload => blockBytes
  | .none | .cmdReady | .cmdR1 | .rxToken | .txToken | .txResp | .txBusy => 0

/-! ## What holds of every state of a run -/

/-- The parameters a claim about this engine may assume (R6): both budgets at least 1, the cursor 0 at
Ready (D15). -/
def legalParams (p : Params) : Prop :=
  1 ≤ p.retryBudget ∧ 1 ≤ p.initBudget ∧ p.readyPosition = 0#33

/-- The invariant of the engine. -/
structure Inv (s : State) : Prop where
  /-- R6 -/
  params : legalParams s.params
  /-- R35 -/
  phase : s.phase.legal = true
  /-- `S.initialized == true` if and only if `S.initResult == Ready` (R23) -/
  initialized : s.dev.initialized = true ↔ s.dev.initResult = .ready
  /-- a device that is not present is never initialized (R21) -/
  present : s.dev.initialized = true → s.dev.present = true
  /-- R21: `present` is false until CMD0 has passed -/
  absent : s.phase.top = .initReset → s.dev.present = false
  /-- R21, R131, R132: after initialization the device is present unless the outcome is NotPresent -/
  outcome : s.phase.top.inInit = false →
    (s.dev.present = true ↔ s.dev.initResult ≠ .notPresent)
  /-- `Pending` from reset until initialization ends (R23) -/
  pending : s.dev.initResult = .pending ↔ s.phase.top.inInit = true
  /-- R27 (a) -/
  blockSize : s.dev.initialized = true → s.dev.blockSize = BitVec.ofNat 33 blockBytes
  /-- R25, R168: a multiple of 1024, at most `2^32` -/
  blockCount : s.dev.initialized = true →
    s.dev.blockCount.toNat % 1024 = 0 ∧ s.dev.blockCount.toNat ≤ 2 ^ 32
  /-- R27 (b) -/
  position : s.dev.initialized = true → s.dev.position ≤ s.dev.blockCount
  /-- R27 (c), R123: a READ or WRITE runs on a Ready device with the cursor in range -/
  operation : s.phase.top = .opRead ∨ s.phase.top = .opWrite →
    s.dev.initialized = true ∧ s.dev.position < s.dev.blockCount
  /-- steps 2 to 4 run on a present device (R131) -/
  presentInInit : s.phase.top = .initVoltage ∨ s.phase.top = .initIdleWait ∨
    s.phase.top = .initReadReg → s.dev.present = true
  /-- R117: the reply bytes are read only after R1 == 1 -/
  replyAnswered : s.phase.sub = .r7Bytes → s.r1 = .answer 1#7
  /-- R120, R121, R122: a data phase runs only after R1 == 0 -/
  dataAnswered : s.phase.sub.inData = true → s.r1 = .answer 0#7
  /-- R36: a poll in progress has made fewer than RETRY_BUDGET exchanges -/
  pollCounter : s.phase.sub.polls = true → s.n < s.params.retryBudget
  /-- R36: the index of a run in progress is inside the run -/
  runCounter : s.phase.sub.runLength s.phase.top ≠ 0 →
    s.k < s.phase.sub.runLength s.phase.top
  /-- R36: an IdleWait loop in progress has completed fewer than INIT_BUDGET iterations -/
  idleWait : s.phase.top = .initIdleWait → s.it < s.params.initBudget
  /-- R33: from its first exchange on, a command's frame is in the latch -/
  frame : (s.phase.sub = .cmdReady ∧ s.n ≠ 0) ∨ s.phase.sub = .cmdFrame →
    ∀ c, commandOf s = some c → s.frame = c.frame
  /-- R152: the payload received so far -/
  payload : s.phase.sub = .rxPayload → s.rxData.length = s.k
  /-- R152: the whole payload -/
  received : s.phase.sub = .rxCrc → s.rxData.length = rxLength s.phase.top
  /-- R50, R64: outside an inbound block nothing of one is held -/
  noReceived : s.phase.sub ≠ .rxPayload → s.phase.sub ≠ .rxCrc → s.rxData = []
  /-- R50, R64: the payload of a WRITE is held while it is in progress, and no longer -/
  noOutbound : s.txData.isSome = true ↔ s.phase.top = .opWrite
  /-- the card's store keeps its canonical form -/
  store : s.card.wf = true

/-! ## The pseudocode of the rules, over the procedures `sendCommand`, `Receive` and `Transmit` -/

/-- Step 4, ReadRegister, and step 5, Ready (R134 to R136). -/
def pseudoReadRegister (s : State) : State :=
  let s := sendCommand ⟨9#6, 0#32⟩ (startCommand .initReadReg false s)
  if s.r1 ≠ .answer 0#7 then doneInit .failed s
  else
    let s := receive 16 s
    if s.framerResult ≠ .ok then doneInit .failed s
    else
      let s := latchCsd s
      if csdStructure s.csd ≠ s.params.csdHcStruct then doneInit .unsupported s
      else
        doneInit .ready
          { s with
            dev :=
              { s.dev with
                initialized := true, blockSize := 512#33
                blockCount := csdCount s.params s.csd, position := s.params.readyPosition } }

/-- Step 3, IdleWait: at most `iterations` more of them (R133). -/
def pseudoIdleWait (iterations : Nat) (s : State) : State :=
  match iterations with
  | 0 => doneInit .failed s
  | iterations + 1 =>
    let s := sendCommand ⟨55#6, 0#32⟩ (startCommand .initIdleWait false s)
    if s.r1 = .timeout then doneInit .failed s
    else
      let s := sendCommand ⟨41#6, 0x40000000#32⟩ (startCommand .initIdleWait true s)
      if s.r1 = .timeout then doneInit .failed s
      else
        let s := { s with it := s.it + 1 }
        if s.r1 ≠ .answer 1#7 then pseudoReadRegister s
        else pseudoIdleWait iterations s

/-- INIT (R130 to R133). -/
def pseudoInit (s : State) : State :=
  let s := sendCommand ⟨0#6, 0#32⟩ (startCommand .initReset false s)
  if s.r1 ≠ .answer 1#7 then doneInit .notPresent s
  else
    let s := { s with dev := { s.dev with present := true } }
    let s := sendCommand ⟨8#6, 0x000001A5#32⟩ (startCommand .initVoltage false s)
    if s.r1 ≠ .answer 1#7 then doneInit .unsupported s
    else
      let s := readReply s
      if s.r7[2] &&& 0x0F#8 ≠ 0x01#8 ∨ s.r7[3] ≠ 0xA5#8 then doneInit .unsupported s
      else pseudoIdleWait s.params.initBudget { s with it := 0 }

/-- READ (R177). -/
def pseudoRead (s : State) : State :=
  if s.dev.initialized = false then fail .io s
  else if s.dev.blockCount ≤ s.dev.position then fail .outOfBounds s
  else
    let s := sendCommand ⟨17#6, sectorArgument s⟩ (startCommand .opRead false s)
    if s.r1 ≠ .answer 0#7 then fail .io (dropPayload s)
    else
      let s := receive 512 s
      if s.framerResult ≠ .ok then fail .io (dropPayload s)
      else respond (.data s.rxData) (dropPayload (setPosition (s.dev.position + 1#33) s))

/-- WRITE (R178). -/
def pseudoWrite (payload : Block) (s : State) : State :=
  if s.dev.initialized = false then fail .io s
  else if s.params.writeEnable = false then fail .notWritable s
  else if s.dev.blockCount ≤ s.dev.position then fail .outOfBounds s
  else
    let s := sendCommand ⟨24#6, sectorArgument s⟩ (startCommand .opWrite false { s with txData := some payload })
    if s.r1 ≠ .answer 0#7 then fail .io (dropPayload s)
    else
      let s := transmit s
      if s.framerResult ≠ .ok then fail .io (dropPayload s)
      else respond (.status .ok) (dropPayload (setPosition (s.dev.position + 1#33) s))

/-! ## Runs -/

/-- `s` reaches `t` in some number of steps. -/
def Reaches (s t : State) : Prop := ∃ steps, Host.Core.run Sys2Proof.core steps s = .next t

/-- The exchanges made between two states of a run, as a number. -/
def exchangesMade (s t : State) : Nat := t.history.length - s.history.length

/-- A Ready device with nothing to do: the state in which SEEK, READ and WRITE do their work. -/
structure ReadyIdle (s : State) : Prop where
  idle : s.phase = Phase.idle
  initialized : s.dev.initialized = true
  live : s.stalled = false

/-- The state of an engine that has just been reset, with these parameters and this card. -/
def State.fresh (p : Params) (card : Card) : State := { State.reset with params := p, card := card }

end Sys2Proof.Machine
end

