-- ==== Sys2Proof/Certificates/Slice0/Obligations.lean ====
section
/-! DEFINITION. The statements for the provers: what the rules of spec/ say the engine does, over the model.
"R<n>" is a rule of spec/, "log <n>" is notes/assumptions/<n>.md. -/

section

open Sys2Proof Sys2Proof.Machine

/-! ## Encodings (spec/30_encoding.md) -/

/-- Words of the opcode table, written out from R82, R74, R75, R76, R77, R87 and R86, decode to the rows they
stand for. The model's choice, not the spec's: the numbering of the bits and the order READY, START,
DRESP_ACCEPT, R1 in which a byte without its context is read, so that 0x05, an R1 in an R1 poll (R74, R83), is
here the accepting data response (log 16), and the 40 bits of a request word (log 17). -/
def Obligations.TableWordsDecode : Prop :=
  decodeTableWord 48 0x400000000095 = some .cmd0 ∧
  decodeTableWord 48 0x48000001A569 = some .cmd8 ∧
  decodeTableWord 48 0x5100012345FF = some (.cmd17 0x00012345#32) ∧
  decodeTableWord 48 0x694000000000 = none ∧
  decodeTableWord 8 0x05 = some (.drespAccept 0#3) ∧
  decodeTableWord 8 0x7F = some (.r1 0x7F#7) ∧
  decodeTableWord 8 0xFE = some .start ∧
  decodeTableWord 32 0x000001A5 = some (.r7 0x00#8 0x00#8 0x01#8 0xA5#8) ∧
  decodeTableWord 40 0x10000F9FF = some (.seek 0x0000F9FF#32) ∧
  decodeTableWord 40 0x600000000 = none

/-- Decoding an encoded instruction gives it back, for every well-formed instruction, with every operand at
every value. -/
def Obligations.DecodeOfEncode : Prop :=
  ∀ i : Instr, i.wf = true → decode i.context (encode i) = .ok i

/-- Bytes that decode are the encoding of what they decode to, in its own context, and that is well-formed: no
two byte strings mean the same instruction. -/
def Obligations.EncodeOfDecode : Prop :=
  ∀ (c : Context) (bytes : List Byte) (i : Instr),
    decode c (.wire bytes) = .ok i → encode i = .wire bytes ∧ i.context = c ∧ i.wf = true

/-- R86, the spec's own choice of a bit-level form (D19): the request word by its operation code, and the lines
of a response. That the value line, which R86 leaves ignored, is 0 with a status response is the model's
(log 22), and that the payload lines are there with every code (log 7). -/
def Obligations.HostRequestForms : Prop :=
  (∀ (sector : BitVec 32) (payload : Block),
    decodeRequest ⟨requestWord 0#3 sector, payload⟩ = .error .noRequest ∧
    decodeRequest ⟨requestWord 1#3 sector, payload⟩ = .ok (.seek sector) ∧
    decodeRequest ⟨requestWord 2#3 sector, payload⟩ = .ok .read ∧
    decodeRequest ⟨requestWord 3#3 sector, payload⟩ = .ok (.write payload) ∧
    decodeRequest ⟨requestWord 4#3 sector, payload⟩ = .ok .blocksize ∧
    decodeRequest ⟨requestWord 5#3 sector, payload⟩ = .ok .blockcount ∧
    decodeRequest ⟨requestWord 6#3 sector, payload⟩ = .error .reservedRequest ∧
    decodeRequest ⟨requestWord 7#3 sector, payload⟩ = .error .reservedRequest) ∧
  (∀ (r : HostRequest) (s : State), s.phase.top = .idle → s.request = some r →
    (r.op = 6#3 ∨ r.op = 7#3 → step s = .refused .reservedRequest) ∧
    (r.op = 0#3 → s.script = [] → step s = .next s)) ∧
  (∀ (payload : List Byte) (value : BitVec 33),
    (Response.status .ok).lines = (0#3, 0#33) ∧ (Response.status .io).lines = (1#3, 0#33) ∧
    (Response.status .outOfBounds).lines = (2#3, 0#33) ∧
    (Response.status .unsupported).lines = (3#3, 0#33) ∧
    (Response.status .notWritable).lines = (4#3, 0#33) ∧
    (Response.data payload).lines.1 = 0#3 ∧ (Response.number value).lines.2 = value)

/-- R82: while a frame is being sent the latch holds one of the seven frames, the one of the operation in
progress, and byte `k` of it goes out. -/
def Obligations.EmittedFrames : Prop :=
  ∀ s : State, Inv s → s.phase.sub = .cmdFrame →
    (∃ h : s.k < 6, outByte s = s.frame[s.k]) ∧
    ((s.phase.top = .initReset ∧ s.frame = #v[0x40#8, 0x00#8, 0x00#8, 0x00#8, 0x00#8, 0x95#8]) ∨
     (s.phase.top = .initVoltage ∧ s.frame = #v[0x48#8, 0x00#8, 0x00#8, 0x01#8, 0xA5#8, 0x69#8]) ∨
     (s.phase.top = .initIdleWait ∧ s.phase.acmd = false ∧
        s.frame = #v[0x77#8, 0x00#8, 0x00#8, 0x00#8, 0x00#8, 0xFF#8]) ∨
     (s.phase.top = .initIdleWait ∧ s.phase.acmd = true ∧
        s.frame = #v[0x69#8, 0x40#8, 0x00#8, 0x00#8, 0x00#8, 0xFF#8]) ∨
     (s.phase.top = .initReadReg ∧ s.frame = #v[0x49#8, 0x00#8, 0x00#8, 0x00#8, 0x00#8, 0xFF#8]) ∨
     (s.phase.top = .opRead ∧ ∃ b1 b2 b3 b4, be32 (s.dev.position.extractLsb' 0 32) = [b1, b2, b3, b4] ∧
        s.frame = #v[0x51#8, b1, b2, b3, b4, 0xFF#8]) ∨
     (s.phase.top = .opWrite ∧ ∃ b1 b2 b3 b4, be32 (s.dev.position.extractLsb' 0 32) = [b1, b2, b3, b4] ∧
        s.frame = #v[0x58#8, b1, b2, b3, b4, 0xFF#8]))

/-! ## Reset, and what a step runs -/

/-- R231: the state at reset, as far as the spec gives it. -/
def Obligations.ResetState : Prop :=
  State.reset.dev.present = false ∧ State.reset.dev.initialized = false ∧
  State.reset.dev.initResult = .pending ∧
  State.reset.phase.top = .initReset ∧ State.reset.phase.sub = .cmdReady ∧
  State.reset.n = 0 ∧ State.reset.k = 0 ∧ State.reset.it = 0 ∧ State.reset.history = [] ∧
  1 ≤ State.reset.params.retryBudget ∧ 1 ≤ State.reset.params.initBudget

/-- R232: leaving reset the engine runs INIT by itself: it is busy and refuses requests while the outcome is
Pending (that a request it does not accept is refused is D19; log 6), its first exchange sends the filler, and it
reaches the end of INIT. -/
def Obligations.InitStartsByItself : Prop :=
  ∀ (p : Params) (card : Card), legalParams p → card.wf = true →
    (∃ t i, step (State.fresh p card) = .next t ∧ t.history = [(0xFF#8, i)]) ∧
    (∀ (steps : Nat) (s : State) (r : HostRequest),
      Host.Core.run Sys2Proof.core steps (State.fresh p card) = .next s →
      s.dev.initResult = .pending → r.op ≠ 0#3 →
      busy s = true ∧ step { s with request := some r } = .refused .requestWhileBusy) ∧
    (∃ t, Reaches (State.fresh p card) t ∧ busy t = false ∧ t.dev.initResult ≠ .pending)

/-- A step runs the decoded request: on an IDLE engine whose lines hold a request that decodes to `i`, a step
is `exec i` when `i` makes no exchange, and otherwise the acceptance of `i` with its first exchange (log 10). -/
def Obligations.StepRunsDecodedRequest : Prop :=
  ∀ (s : State) (r : HostRequest) (i : Instr), s.phase.top = .idle → s.request = some r →
    decode .host (.request r) = .ok i →
    (busy (startRequest i { s with request := none }) = false →
      step s = exec i { s with request := none }) ∧
    (busy (startRequest i { s with request := none }) = true → s.stalled = false →
      step s = .next (tick (startRequest i { s with request := none })))

/-- The steps from a request run the meaning of the decoded request to its end, whether the request stands on
the lines or is the next one of the host's script. -/
def Obligations.RequestReachesItsMeaning : Prop :=
  ∀ (s : State) (r : HostRequest) (i : Instr), s.phase.top = .idle → s.stalled = false →
    decode .host (.request r) = .ok i →
    (s.request = some r →
      ∃ t, exec i { s with request := none } = .next t ∧ Reaches s t) ∧
    (∀ rest, s.request = none → s.script = r :: rest →
      ∃ t, exec i { s with script := rest } = .next t ∧ Reaches s t)

/-- A step runs the received byte: in a poll or at the data-response byte, when the card's next byte decodes
in that context to `i`, a step is `exec i`. -/
def Obligations.StepRunsReceivedByte : Prop :=
  ∀ (s : State) (b : Byte) (rest : List Byte) (i : Instr), busy s = true → s.request = none →
    s.card = .oracle (b :: rest) →
    ((s.phase.sub = .cmdR1 ∧ decode .status (.wire [b]) = .ok i) ∨
     (s.phase.sub = .rxToken ∧ decode .token (.wire [b]) = .ok i) ∨
     (s.phase.sub = .txResp ∧ decode .dataResponse (.wire [b]) = .ok i) ∨
     ((s.phase.sub = .cmdReady ∨ s.phase.sub = .txBusy) ∧ decode .lineState (.wire [b]) = .ok i)) →
    step s = exec i { s with card := .oracle rest }

/-- The steps run the received blocks: the four reply bytes, an inbound block and the CSD payload, when the
card answers them from where the engine begins to receive them; and the outbound block the engine sends. -/
def Obligations.StepsRunBlocks : Prop :=
  ∀ (s : State) (rest : List Byte), busy s = true → s.request = none → s.stalled = false →
    (∀ b0 b1 b2 b3, s.phase.sub = .r7Bytes → s.k = 0 → s.card = .oracle ([b0, b1, b2, b3] ++ rest) →
      ∃ t, exec (.r7 b0 b1 b2 b3) { s with card := .oracle rest } = .next t ∧ Reaches s t) ∧
    (∀ payload crc0 crc1, s.phase.sub = .rxToken → payload.length = rxLength s.phase.top →
      s.card = .oracle (inboundBytes payload crc0 crc1 ++ rest) →
      ∃ t, exec (.rxblock payload crc0 crc1) { s with card := .oracle rest } = .next t ∧ Reaches s t) ∧
    (∀ register : Csd, s.phase.top = .initReadReg → s.phase.sub = .rxPayload → s.k = 0 →
      s.card = .oracle (register.toList ++ rest) →
      ∃ t, exec (.csd register) { s with card := .oracle rest } = .next t ∧ Reaches s t) ∧
    (∀ payload, s.phase.sub = .txToken → s.txData = some payload →
      ∃ t, exec (.txblock payload) s = .next t ∧ Reaches s t)

/-- The steps run the commands: from the first exchange of an operation's command the machine reaches the
state in which that command's meaning has ended and the operation has decided on what it left. A WRITE in progress
has a payload in every state of a run (Inv.noOutbound, StepKeepsInv). -/
def Obligations.StepsRunCommands : Prop :=
  ∀ s : State, s.phase.sub = .cmdReady → s.n = 0 → s.request = none → s.stalled = false →
    (s.phase.top = .initReset →
      ∃ t, exec .cmd0 s = .next t ∧ Reaches s (afterReset t)) ∧
    (s.phase.top = .initVoltage →
      ∃ t, exec .cmd8 s = .next t ∧
        Reaches s (if t.r1 = .answer 1#7 then afterReply t else doneInit .unsupported t)) ∧
    (s.phase.top = .initIdleWait → s.phase.acmd = false →
      ∃ t, exec .cmd55 s = .next t ∧ Reaches s (afterPrefix t)) ∧
    (s.phase.top = .initIdleWait → s.phase.acmd = true →
      ∃ t, exec .acmd41 s = .next t ∧ Reaches s (afterIdleWait t)) ∧
    (s.phase.top = .initReadReg →
      ∃ t, exec .cmd9 s = .next t ∧
        Reaches s (if t.r1 = .answer 0#7 then afterRegisterBlock t else doneInit .failed t)) ∧
    (s.phase.top = .opRead →
      ∃ t, exec (.cmd17 (s.dev.position.extractLsb' 0 32)) s = .next t ∧
        Reaches s (if t.r1 = .answer 0#7 then afterReadBlock t else fail .io (dropPayload t))) ∧
    (s.phase.top = .opWrite → s.txData.isSome = true →
      ∃ t, exec (.cmd24 (s.dev.position.extractLsb' 0 32)) s = .next t ∧
        Reaches s (if t.r1 = .answer 0#7 then afterWriteBlock t else fail .io (dropPayload t)))

/-! ## Commands (spec/41_command.md) -/

/-- `sendCommand` (R110): the frame of R71 and R113, the exchanges in their order, the R1 or Timeout, and the
bound on the exchanges against any card, which R110 marks as derived. Where the procedure leaves its counters
and that no procedure is then in progress is the model's (log 12, log 14). -/
def Obligations.SendCommand : Prop :=
  ∀ (c : Command) (s : State), 1 ≤ s.params.retryBudget →
    c.frame.toList = [0x40#8 ||| (c.index &&& 0x3F#6).zeroExtend 8] ++ be32 c.arg ++
      [if c.index = 0#6 then 0x95#8 else if c.index = 8#6 then 0x69#8 else 0xFF#8] ∧
    (∃ pairs, (sendCommand c s).history = s.history ++ pairs ∧ 8 ≤ pairs.length ∧
      pairs.length ≤ 2 * s.params.retryBudget + 6) ∧
    (∀ ready frameIn r1In rest, ReadyPoll s.params.retryBudget ready → frameIn.length = 6 →
      s.card = .oracle (ready ++ frameIn ++ r1In ++ rest) →
      (∀ bits, R1Answer s.params.retryBudget bits r1In →
        ∃ n k, sendCommand c s =
          commandEnds c.frame (.answer bits) (commandPairs c.frame ready frameIn r1In) rest n k s) ∧
      (PollMiss s.params.retryBudget isR1 r1In →
        ∃ n k, sendCommand c s =
          commandEnds c.frame .timeout (commandPairs c.frame ready frameIn r1In) rest n k s))

/-- CMD0, CMD55 and ACMD41 complete: the frame of the row on the bus, the result in `r1`, nothing else. -/
def Obligations.CommandsWithoutData : Prop :=
  ∀ (i : Instr) (frame : Vector Byte 6) (s : State) (ready frameIn r1In rest : List Byte) (r : R1Result),
    ((i = .cmd0 ∧ frame = #v[0x40#8, 0x00#8, 0x00#8, 0x00#8, 0x00#8, 0x95#8]) ∨
     (i = .cmd55 ∧ frame = #v[0x77#8, 0x00#8, 0x00#8, 0x00#8, 0x00#8, 0xFF#8]) ∨
     (i = .acmd41 ∧ frame = #v[0x69#8, 0x40#8, 0x00#8, 0x00#8, 0x00#8, 0xFF#8])) →
    s.stalled = false → 1 ≤ s.params.retryBudget →
    ReadyPoll s.params.retryBudget ready → frameIn.length = 6 →
    ((∃ bits, R1Answer s.params.retryBudget bits r1In ∧ r = .answer bits) ∨
     (PollMiss s.params.retryBudget isR1 r1In ∧ r = .timeout)) →
    s.card = .oracle (ready ++ frameIn ++ r1In ++ rest) →
    ∃ n k, exec i s = .next (commandEnds frame r (commandPairs frame ready frameIn r1In) rest n k s)

/-- CMD8, CMD9, CMD17 and CMD24 end at the R1 poll, with no exchange after it, when the result is Timeout or
not the value the row goes on with: R1 == 1 for CMD8, R1 == 0 for the others. -/
def Obligations.DataCommandsStopAtR1 : Prop :=
  ∀ (i : Instr) (frame : Vector Byte 6) (goOn : BitVec 7) (s : State)
    (ready frameIn r1In rest : List Byte) (r : R1Result) (b1 b2 b3 b4 : Byte),
    ((i = .cmd8 ∧ goOn = 1#7 ∧ frame = #v[0x48#8, 0x00#8, 0x00#8, 0x01#8, 0xA5#8, 0x69#8]) ∨
     (i = .cmd9 ∧ goOn = 0#7 ∧ frame = #v[0x49#8, 0x00#8, 0x00#8, 0x00#8, 0x00#8, 0xFF#8]) ∨
     (i = .cmd17 (ofBe32 b1 b2 b3 b4) ∧ goOn = 0#7 ∧ frame = #v[0x51#8, b1, b2, b3, b4, 0xFF#8]) ∨
     (i = .cmd24 (ofBe32 b1 b2 b3 b4) ∧ goOn = 0#7 ∧ frame = #v[0x58#8, b1, b2, b3, b4, 0xFF#8])) →
    s.stalled = false → 1 ≤ s.params.retryBudget →
    ReadyPoll s.params.retryBudget ready → frameIn.length = 6 →
    ((∃ bits, R1Answer s.params.retryBudget bits r1In ∧ bits ≠ goOn ∧ r = .answer bits) ∨
     (PollMiss s.params.retryBudget isR1 r1In ∧ r = .timeout)) →
    s.card = .oracle (ready ++ frameIn ++ r1In ++ rest) →
    ∃ n k, exec i s = .next (commandEnds frame r (commandPairs frame ready frameIn r1In) rest n k s)

/-- CMD8 answered R1 == 1 reads the four reply bytes with plain exchanges, whatever they are. -/
def Obligations.Cmd8ReadsReply : Prop :=
  ∀ (s : State) (ready frameIn r1In rest : List Byte) (b0 b1 b2 b3 : Byte),
    s.stalled = false → 1 ≤ s.params.retryBudget →
    ReadyPoll s.params.retryBudget ready → frameIn.length = 6 → R1Answer s.params.retryBudget 1#7 r1In →
    s.card = .oracle (ready ++ frameIn ++ r1In ++ [b0, b1, b2, b3] ++ rest) →
    ∃ n k, exec .cmd8 s = .next
      { commandEnds (commandFrame 8#6 0x1A5#32) (.answer 1#7)
          (commandPairs (commandFrame 8#6 0x1A5#32) ready frameIn r1In ++ received [b0, b1, b2, b3]) rest n k s
        with r7 := #v[b0, b1, b2, b3] }

/-- CMD9 and CMD17 answered R1 == 0 receive a block of 16 or 512 bytes, taken verbatim, or IO when the start
token never comes. The operation in progress finds the block in `rxData`; with none in progress nothing takes it
and no copy is held (R64; log 30). -/
def Obligations.ReadCommandsReceive : Prop :=
  ∀ (i : Instr) (length : Nat) (frame : Vector Byte 6) (s : State) (sector : BitVec 32)
    (ready frameIn r1In tokenIn rest : List Byte),
    ((i = .cmd9 ∧ length = 16 ∧ frame = commandFrame 9#6 0#32) ∨
     (i = .cmd17 sector ∧ length = 512 ∧ frame = commandFrame 17#6 sector)) →
    s.stalled = false → 1 ≤ s.params.retryBudget →
    ReadyPoll s.params.retryBudget ready → frameIn.length = 6 → R1Answer s.params.retryBudget 0#7 r1In →
    (∀ (payload : List Byte) (crc0 crc1 : Byte), PollHit s.params.retryBudget isStartToken tokenIn →
      payload.length = length →
      s.card = .oracle (ready ++ frameIn ++ r1In ++ tokenIn ++ payload ++ [crc0, crc1] ++ rest) →
      ∃ n k, exec i s = .next
        { commandEnds frame (.answer 0#7)
            (commandPairs frame ready frameIn r1In ++ received (tokenIn ++ payload ++ [crc0, crc1])) rest n k s
          with rxData := if busy s then payload else s.rxData, framerResult := .ok }) ∧
    (PollMiss s.params.retryBudget isStartToken tokenIn →
      s.card = .oracle (ready ++ frameIn ++ r1In ++ tokenIn ++ rest) →
      ∃ n k, exec i s = .next
        { commandEnds frame (.answer 0#7)
            (commandPairs frame ready frameIn r1In ++ received tokenIn) rest n k s
          with framerResult := .io })

/-- CMD24 answered R1 == 0 transmits the payload of the WRITE: token, 512 bytes, two fillers; then the
data-response byte, and after acceptance the busy poll. Where no WRITE is in progress 512 bytes go out all the
same, of which nothing is said: they are a free value, counted in `draws` (log 31), and no copy of them is held
afterwards (R64; log 30). -/
def Obligations.Cmd24Transmits : Prop :=
  ∀ (s : State) (sector : BitVec 32) (ready frameIn r1In blockIn rest : List Byte) (d : Byte),
    s.stalled = false → 1 ≤ s.params.retryBudget →
    ReadyPoll s.params.retryBudget ready → frameIn.length = 6 → R1Answer s.params.retryBudget 0#7 r1In →
    blockIn.length = 515 →
    ∃ (payload : Block) (draws : Nat), (∀ p, s.txData = some p → payload = p ∧ draws = s.draws) ∧
    (d &&& 0x1F#8 ≠ 0x05#8 →
      s.card = .oracle (ready ++ frameIn ++ r1In ++ blockIn ++ [d] ++ rest) →
      ∃ n k, exec (.cmd24 sector) s = .next
        { commandEnds (commandFrame 24#6 sector) (.answer 0#7)
            (commandPairs (commandFrame 24#6 sector) ready frameIn r1In ++ blockPairs payload blockIn ++
              received [d]) rest n k s
          with framerResult := .io, draws := draws }) ∧
    (∀ busyIn, d &&& 0x1F#8 = 0x05#8 →
      s.card = .oracle (ready ++ frameIn ++ r1In ++ blockIn ++ [d] ++ busyIn ++ rest) →
      (PollHit s.params.retryBudget isReady busyIn →
        ∃ n k, exec (.cmd24 sector) s = .next
          { commandEnds (commandFrame 24#6 sector) (.answer 0#7)
              (commandPairs (commandFrame 24#6 sector) ready frameIn r1In ++ blockPairs payload blockIn ++
                received ([d] ++ busyIn)) rest n k s
            with framerResult := .ok, draws := draws }) ∧
      (PollMiss s.params.retryBudget isReady busyIn →
        ∃ n k, exec (.cmd24 sector) s = .next
          { commandEnds (commandFrame 24#6 sector) (.answer 0#7)
              (commandPairs (commandFrame 24#6 sector) ready frameIn r1In ++ blockPairs payload blockIn ++
                received ([d] ++ busyIn)) rest n k s
            with framerResult := .io, draws := draws }))

/-- The frame of the seven commands against any card: they complete, and change only the latches their rules
name, the counters, the control point, the card and the history; with no operation in progress they leave no
payload (R64; log 30). -/
def Obligations.CommandsFrame : Prop :=
  ∀ (i : Instr) (s : State), i.context = .command → s.stalled = false →
    ∃ t, exec i s = .next t ∧
      t.dev = s.dev ∧ t.csd = s.csd ∧ t.it = s.it ∧ t.params = s.params ∧ t.txData = s.txData ∧
      t.phase.top = s.phase.top ∧ t.phase.acmd = s.phase.acmd ∧ t.stalled = s.stalled ∧
      t.request = s.request ∧ t.script = s.script ∧ t.responses = s.responses ∧
      s.history <+: t.history ∧
      (i ≠ .cmd8 → t.r7 = s.r7) ∧
      ((∀ sector, i ≠ .cmd17 sector) → i ≠ .cmd9 → t.rxData = s.rxData) ∧
      (busy s = false → t.rxData = s.rxData) ∧
      (i = .cmd0 ∨ i = .cmd8 ∨ i = .cmd55 ∨ i = .acmd41 → t.framerResult = s.framerResult)

/-! ## Wire formats (spec/30_encoding.md, 42_init.md, 43_data_framer.md) -/

/-- An R1 ends the R1 poll: it is latched, one pair joins the history, and the operation in progress takes
its row of R138 or goes on with its data phase; the rest of the state stays, the counters `n` and `k` of the
loops apart (R36, log 12), and of a payload nothing survives the end of the operation (R64; log 30). -/
def Obligations.R1EndsThePoll : Prop :=
  ∀ (bits : BitVec 7) (s : State), s.phase.sub = .cmdR1 → busy s = true → s.stalled = false →
    ∃ t, exec (.r1 bits) s = .next t ∧ t.r1 = .answer bits ∧
      t.history = s.history ++ [(0xFF#8, 0#1 ++ bits)] ∧
      t.csd = s.csd ∧ t.r7 = s.r7 ∧ t.frame = s.frame ∧ t.params = s.params ∧
      (busy t = true → t.rxData = s.rxData ∧ t.txData = s.txData) ∧
      (busy t = false → t.rxData = [] ∧ t.txData = none) ∧
      t.framerResult = s.framerResult ∧ t.card = s.card ∧ t.draws = s.draws ∧
      t.request = s.request ∧ t.script = s.script ∧ t.stalled = s.stalled ∧
      (s.phase.top ≠ .initIdleWait → t.it = s.it) ∧
      (s.phase.top = .initReset → t.responses = s.responses ∧
        (bits = 1#7 → t.phase = ⟨.initVoltage, .cmdReady, false⟩ ∧ t.dev = { s.dev with present := true }) ∧
        (bits ≠ 1#7 → t.phase = Phase.idle ∧ t.dev = { s.dev with initResult := .notPresent })) ∧
      (s.phase.top = .initVoltage → t.responses = s.responses ∧
        (bits = 1#7 → t.phase = { s.phase with sub := .r7Bytes } ∧ t.k = 0 ∧ t.dev = s.dev) ∧
        (bits ≠ 1#7 → t.phase = Phase.idle ∧ t.dev = { s.dev with initResult := .unsupported })) ∧
      (s.phase.top = .initIdleWait → s.phase.acmd = false →
        t.responses = s.responses ∧ t.phase = ⟨.initIdleWait, .cmdReady, true⟩ ∧ t.dev = s.dev ∧ t.it = s.it) ∧
      (s.phase.top = .initIdleWait → s.phase.acmd = true →
        t.responses = s.responses ∧ t.it = s.it + 1 ∧
        (bits ≠ 1#7 → t.phase = ⟨.initReadReg, .cmdReady, false⟩ ∧ t.dev = s.dev) ∧
        (bits = 1#7 → s.it + 1 < s.params.initBudget →
          t.phase = ⟨.initIdleWait, .cmdReady, false⟩ ∧ t.dev = s.dev) ∧
        (bits = 1#7 → s.it + 1 = s.params.initBudget →
          t.phase = Phase.idle ∧ t.dev = { s.dev with initResult := .failed })) ∧
      (s.phase.top = .initReadReg → t.responses = s.responses ∧
        (bits = 0#7 → t.phase = { s.phase with sub := .rxToken } ∧ t.n = 0 ∧ t.dev = s.dev) ∧
        (bits ≠ 0#7 → t.phase = Phase.idle ∧ t.dev = { s.dev with initResult := .failed })) ∧
      (s.phase.top = .opRead → t.dev = s.dev ∧
        (bits = 0#7 → t.phase = { s.phase with sub := .rxToken } ∧ t.n = 0 ∧ t.responses = s.responses) ∧
        (bits ≠ 0#7 → t.phase = Phase.idle ∧ t.responses = s.responses ++ [.status .io])) ∧
      (s.phase.top = .opWrite → t.dev = s.dev ∧
        (bits = 0#7 → t.phase = { s.phase with sub := .txToken } ∧ t.responses = s.responses) ∧
        (bits ≠ 0#7 → t.phase = Phase.idle ∧ t.responses = s.responses ++ [.status .io]))

/-- A byte that fails the test of the poll in progress, short of the budget, only counts: the control point,
the Device State and every latch but the frame being prepared stay (R102, R83 b, d, f). -/
def Obligations.PollsSkipOtherBytes : Prop :=
  ∀ (i : Byte) (s : State), busy s = true → s.n + 1 < s.params.retryBudget →
    ((s.phase.sub = .cmdReady ∧ i ≠ 0xFF#8) ∨ (s.phase.sub = .cmdR1 ∧ 0x80#8 ≤ i) ∨
     (s.phase.sub = .rxToken ∧ i ≠ 0xFE#8) ∨ (s.phase.sub = .txBusy ∧ i ≠ 0xFF#8)) →
    ∃ frame, (s.phase.sub ≠ .cmdReady ∨ s.n ≠ 0 → frame = s.frame) ∧
      engineStep i s =
        { s with n := s.n + 1, frame := frame, history := s.history ++ [(0xFF#8, i)] }

/-- The byte that exhausts a poll (R102, R205): the ready poll goes on with the frame; an R1 poll is a
Timeout, with the outcome of R205; a start-token poll and a busy poll are IO. -/
def Obligations.PollExhaustion : Prop :=
  ∀ (i : Byte) (s t : State), busy s = true → s.n + 1 = s.params.retryBudget → t = engineStep i s →
    (s.phase.sub = .cmdReady → i ≠ 0xFF#8 →
      t.phase = { s.phase with sub := .cmdFrame } ∧ t.k = 0 ∧ t.dev = s.dev ∧ t.responses = s.responses) ∧
    (s.phase.sub = .cmdR1 → 0x80#8 ≤ i → t.r1 = .timeout ∧ t.phase = Phase.idle ∧
      (s.phase.top = .initReset → t.dev = { s.dev with initResult := .notPresent }) ∧
      (s.phase.top = .initVoltage → t.dev = { s.dev with initResult := .unsupported }) ∧
      (s.phase.top = .initIdleWait ∨ s.phase.top = .initReadReg →
        t.dev = { s.dev with initResult := .failed }) ∧
      (s.phase.top = .opRead ∨ s.phase.top = .opWrite →
        t.dev = s.dev ∧ t.responses = s.responses ++ [.status .io])) ∧
    (s.phase.sub = .rxToken → i ≠ 0xFE#8 →
      (s.phase.top = .initReadReg → t.phase = Phase.idle ∧ t.dev = { s.dev with initResult := .failed }) ∧
      (s.phase.top = .opRead → t.phase = Phase.idle ∧ t.dev = s.dev ∧
        t.responses = s.responses ++ [.status .io])) ∧
    (s.phase.sub = .txBusy → i ≠ 0xFF#8 → s.phase.top = .opWrite →
      t.phase = Phase.idle ∧ t.dev = s.dev ∧ t.responses = s.responses ++ [.status .io])

/-- The reply tail of CMD8 decides VoltageCheck: low nibble of byte 2 is 1 and byte 3 is 0xA5, the other
bits not examined; IdleWait then starts with CMD55 and `it` 0. -/
def Obligations.ReplyDecidesVoltage : Prop :=
  ∀ (b0 b1 b2 b3 : Byte) (s : State), s.phase = ⟨.initVoltage, .r7Bytes, s.phase.acmd⟩ → s.k = 0 →
    s.stalled = false →
    ∃ n k, exec (.r7 b0 b1 b2 b3) s = .next
      (if b2.toNat % 16 = 1 ∧ b3 = 0xA5#8 then
        { s with
          r7 := #v[b0, b1, b2, b3], phase := ⟨.initIdleWait, .cmdReady, false⟩, it := 0, n := 0, k := k
          history := s.history ++ received [b0, b1, b2, b3] }
      else
        { s with
          r7 := #v[b0, b1, b2, b3], phase := Phase.idle, n := n, k := k, rxData := [], txData := none
          dev := { s.dev with initResult := .unsupported }
          history := s.history ++ received [b0, b1, b2, b3] })

/-- START, received: the start-token poll ends and payload byte 0 comes next. START, sent: payload byte 0
goes out next, whatever was received. -/
def Obligations.StartTokenBothWays : Prop :=
  ∀ s : State, busy s = true → s.stalled = false →
    (s.phase.sub = .rxToken →
      exec .start s = .next
        { s with
          phase := { s.phase with sub := .rxPayload }, k := 0, n := s.n + 1
          rxData := [], history := s.history ++ [(0xFF#8, 0xFE#8)] }) ∧
    (s.phase.sub = .txToken →
      ∃ i card draws, exec .start s = .next
        { s with
          phase := { s.phase with sub := .txPayload }, k := 0, card := card, draws := draws
          history := s.history ++ [(0xFE#8, i)] })

/-- The data-response byte: the eight bytes whose low five bits are 0b00101 accept and start the busy poll,
every other byte ends the WRITE with IO and the Device State unchanged. -/
def Obligations.DataResponseDecides : Prop :=
  ∀ s : State, s.phase.top = .opWrite → s.phase.sub = .txResp → s.stalled = false →
    (∀ ignored : BitVec 3, exec (.drespAccept ignored) s = .next
      { s with
        phase := { s.phase with sub := .txBusy }, n := 0
        history := s.history ++ [(0xFF#8, ignored ++ 0b00101#5)] }) ∧
    (∀ d : Byte, d.toNat % 32 ≠ 5 → engineStep d s =
      { s with
        phase := Phase.idle, framerResult := .io, rxData := [], txData := none
        history := s.history ++ [(0xFF#8, d)]
        responses := s.responses ++ [.status .io] })

/-- READY before a command starts the frame; READY after an accepted block ends the WRITE with Ok and moves
the cursor by one. -/
def Obligations.ReadyByte : Prop :=
  ∀ s : State, busy s = true → s.stalled = false →
    (s.phase.sub = .cmdReady →
      ∃ frame, (s.n ≠ 0 → frame = s.frame) ∧ exec .ready s = .next
        { s with
          phase := { s.phase with sub := .cmdFrame }, k := 0, n := s.n + 1, frame := frame
          history := s.history ++ [(0xFF#8, 0xFF#8)] }) ∧
    (s.phase.top = .opWrite → s.phase.sub = .txBusy →
      exec .ready s = .next
        { s with
          phase := Phase.idle, n := s.n + 1, framerResult := .ok, rxData := [], txData := none
          dev := { s.dev with position := s.dev.position + 1#33 }
          history := s.history ++ [(0xFF#8, 0xFF#8)], responses := s.responses ++ [.status .ok] })

/-- An inbound block ends a READ with its 512 bytes and the cursor moved by one; after CMD9 its 16 bytes are
latched and decoded: the structure check, then Ready with the capacity of R168 (R134 to R136). The counters'
last values are the model's (log 12). The engine holds no copy afterwards (R64). -/
def Obligations.InboundBlockIsTaken : Prop :=
  ∀ (s : State) (crc0 crc1 : Byte), s.phase.sub = .rxToken → s.stalled = false →
    (∀ payload : List Byte, s.phase.top = .opRead → payload.length = 512 →
      ∃ n k, exec (.rxblock payload crc0 crc1) s = .next
        { s with
          phase := Phase.idle, n := n, k := k, rxData := [], txData := none, framerResult := .ok
          dev := { s.dev with position := s.dev.position + 1#33 }
          history := s.history ++ received ([0xFE#8] ++ payload ++ [crc0, crc1])
          responses := s.responses ++ [.data payload] }) ∧
    (∀ register : Csd, s.phase.top = .initReadReg →
      ∃ n k, exec (.rxblock register.toList crc0 crc1) s = .next
        { s with
          phase := Phase.idle, n := n, k := k, rxData := [], txData := none, framerResult := .ok, csd := register
          dev :=
            if register[0].extractLsb' 6 2 = s.params.csdHcStruct then
              { s.dev with
                initialized := true, initResult := .ready, blockSize := 512#33
                blockCount := csdCount s.params register, position := s.params.readyPosition }
            else { s.dev with initResult := .unsupported }
          history := s.history ++ received ([0xFE#8] ++ register.toList ++ [crc0, crc1]) })

/-- An outbound block: the start token, the 512 bytes in order and the two fillers go out in 515 exchanges,
whatever the card answers, and the data-response byte comes next. R79 sends it in a WRITE after the R1 of CMD24;
that the row sends it from every other state too, the IDLE one included, is the model's choice (log 15);
an IDLE engine holds no copy of it (R64; log 30). -/
def Obligations.OutboundBlockIsSent : Prop :=
  ∀ (payload : Block) (s : State), s.stalled = false →
    ∃ blockIn card draws k, blockIn.length = 515 ∧ exec (.txblock payload) s = .next
      { s with
        phase := { s.phase with sub := .txResp }, k := k, card := card, draws := draws
        txData := if busy s then some payload else s.txData
        history := s.history ++ ([0xFE#8] ++ payload.val ++ [0xFF#8, 0xFF#8]).zip blockIn }

/-- The sixteen bytes of the CSD, arriving as the payload after CMD9, are latched and decoded, whatever the
card then answers in the two CRC positions. No copy but the latch is held afterwards (R64). -/
def Obligations.CsdIsDecoded : Prop :=
  ∀ (register : Csd) (s : State), s.phase = ⟨.initReadReg, .rxPayload, s.phase.acmd⟩ → s.k = 0 →
    s.rxData = [] → s.stalled = false →
    ∃ crc0 crc1 card draws k, exec (.csd register) s = .next
      { s with
        phase := Phase.idle, k := k, rxData := [], txData := none, framerResult := .ok, csd := register
        card := card, draws := draws
        dev :=
          if register[0].extractLsb' 6 2 = s.params.csdHcStruct then
            { s.dev with
              initialized := true, initResult := .ready, blockSize := 512#33
              blockCount := csdCount s.params register, position := s.params.readyPosition }
          else { s.dev with initResult := .unsupported }
        history := s.history ++ received (register.toList ++ [crc0, crc1]) }

/-- R168 with R81 and R167: the sector count is `(C + CAP_BIAS) * 1024`, exact, with
`C = csd[7][5:0] * 65536 + csd[8] * 256 + csd[9]`, a multiple of 1024 in the range of R168. The parameter CAP_BIAS
in the formula, and that it is 0 on this hardware, are the spec's own decision (D3; log 21). -/
def Obligations.CapacityIsExact : Prop :=
  Config.params.capBias = 0 ∧ ∀ (p : Params) (register : Csd),
    (csdCount p register).toNat =
      (register[7].toNat % 64 * 65536 + register[8].toNat * 256 + register[9].toNat + p.capBias.val) * 1024 ∧
    (csdCount p register).toNat % 1024 = 0 ∧
    (p.capBias = 0 → (csdCount p register).toNat ≤ 4294966272) ∧
    (p.capBias = 1 → 1024 ≤ (csdCount p register).toNat ∧ (csdCount p register).toNat ≤ 4294967296)

/-- The bytes of a received format in any phase of a busy engine: each is one exchange of the engine, in
order, the first always, until all are taken or the engine is IDLE; none of them makes it stop (R83, R104). The
at most two exchanges after the sixteen bytes of a CSD are its CRC positions (R153). An IDLE engine makes no
exchange, so nothing reaches it (R216; log 15). -/
def Obligations.ReceivedBytesAreExchanges : Prop :=
  ∀ (i : Instr) (bytes : List Byte) (s : State), s.stalled = false →
    encode i = .wire bytes → i.context ≠ .command → i.context ≠ .outbound →
    (busy s = false → exec i s = .next s) ∧
    (busy s = true → (i = .start → s.phase.sub ≠ .txToken) →
      ∃ t taken more, exec i s = .next t ∧ t.history.map Prod.snd = s.history.map Prod.snd ++ taken ++ more ∧
        taken ≠ [] ∧ taken <+: bytes ∧ (taken = bytes ∨ busy (deliver taken s) = false) ∧
        (busy t = true → taken = bytes) ∧ (i.context ≠ .register → more = []) ∧ more.length ≤ 2)

/-- R153: the two trailing CRC bytes of an inbound block influence nothing: two blocks that differ only there
leave states that differ only in the record of the received bytes. -/
def Obligations.CrcBytesInfluenceNothing : Prop :=
  ∀ (s : State) (payload : List Byte) (c0 c1 d0 d1 : Byte), busy s = true → s.stalled = false →
    s.phase.sub = .rxToken → payload.length = rxLength s.phase.top →
    ∃ t history, exec (.rxblock payload c0 c1) s = .next t ∧
      exec (.rxblock payload d0 d1) s = .next { t with history := history } ∧
      history = s.history ++ received ([0xFE#8] ++ payload ++ [d0, d1])

/-- The byte received while a frame, a start token, an outbound payload or a filler is sent is discarded
unexamined: it influences nothing but the record (R83 g, R112, R154). -/
def Obligations.DiscardedBytes : Prop :=
  ∀ (s : State) (i j : Byte), busy s = true →
    (s.phase.sub = .cmdFrame ∨ s.phase.sub = .txToken ∨ s.phase.sub = .txPayload ∨ s.phase.sub = .txCrc) →
    engineStep j s = { engineStep i s with history := s.history ++ [(outByte s, j)] } ∧
      busy (engineStep i s) = true

/-! ## Host operations (spec/45_block_store.md) -/

/-- R176: SEEK, with no bus exchange ever: IO when not initialized, OutOfBounds at or above the sector count,
else the cursor is the sector; a second equal SEEK changes only the list of responses. -/
def Obligations.SeekMovesTheCursor : Prop :=
  ∀ (sector : BitVec 32) (s : State), s.phase = Phase.idle →
    (s.dev.initialized = false →
      exec (.seek sector) s = .next { s with responses := s.responses ++ [.status .io] }) ∧
    (s.dev.initialized = true → s.dev.blockCount.toNat ≤ sector.toNat →
      exec (.seek sector) s = .next { s with responses := s.responses ++ [.status .outOfBounds] }) ∧
    (s.dev.initialized = true → sector.toNat < s.dev.blockCount.toNat →
      ∃ t, exec (.seek sector) s = .next t ∧ t.dev.position.toNat = sector.toNat ∧
        t = { s with
              dev := { s.dev with position := t.dev.position }
              responses := s.responses ++ [.status .ok] } ∧
        exec (.seek sector) t = .next { t with responses := t.responses ++ [.status .ok] })

/-- R179 and R180: BLOCKSIZE and BLOCKCOUNT are pure reads; on an initialized engine 512 and the sector
count, otherwise some number, of which nothing is said. That the free number is counted in `draws` is the
model's (log 5). -/
def Obligations.AccessorsArePureReads : Prop :=
  ∀ s : State, Inv s → s.phase = Phase.idle →
    (s.dev.initialized = true →
      exec .blocksize s = .next { s with responses := s.responses ++ [.number 512#33] } ∧
      exec .blockcount s = .next { s with responses := s.responses ++ [.number s.dev.blockCount] }) ∧
    (s.dev.initialized = false →
      (∃ value draws, exec .blocksize s = .next
        { s with responses := s.responses ++ [.number value], draws := draws }) ∧
      (∃ value draws, exec .blockcount s = .next
        { s with responses := s.responses ++ [.number value], draws := draws }))

/-- R175, R176, R202, R204 and R207 (1) to (3): the checks made before any bus activity, in their order; a
failed check adds one response and changes nothing else. The place of NotWritable, after IO and before
OutOfBounds, is the spec's own choice (D14; log 25). -/
def Obligations.PreconditionsInOrder : Prop :=
  ∀ (payload : Block) (sector : BitVec 32) (s : State), s.phase = Phase.idle →
    (s.dev.initialized = false →
      exec (.seek sector) s = .next { s with responses := s.responses ++ [.status .io] } ∧
      exec .read s = .next { s with responses := s.responses ++ [.status .io] } ∧
      exec (.write payload) s = .next { s with responses := s.responses ++ [.status .io] }) ∧
    (s.dev.initialized = true → s.params.writeEnable = false →
      exec (.write payload) s = .next { s with responses := s.responses ++ [.status .notWritable] }) ∧
    (s.dev.initialized = true → s.dev.blockCount.toNat ≤ s.dev.position.toNat →
      exec .read s = .next { s with responses := s.responses ++ [.status .outOfBounds] } ∧
      (s.params.writeEnable = true →
        exec (.write payload) s = .next { s with responses := s.responses ++ [.status .outOfBounds] })) ∧
    (s.dev.initialized = true → s.dev.blockCount.toNat ≤ sector.toNat →
      exec (.seek sector) s = .next { s with responses := s.responses ++ [.status .outOfBounds] })

/-- READ delivers: CMD17 with the cursor, R1 == 0, a block; the response is the 512 payload bytes and the
cursor moves by one. The counters' last values are the model's (log 12). The engine holds no copy of the sector
afterwards (R50, R64). -/
def Obligations.ReadDelivers : Prop :=
  ∀ (s : State) (ready frameIn r1In tokenIn payload rest : List Byte) (crc0 crc1 : Byte) (frame : Vector Byte 6),
    ReadyIdle s → s.dev.position.toNat < s.dev.blockCount.toNat → 1 ≤ s.params.retryBudget →
    ReadyPoll s.params.retryBudget ready → frameIn.length = 6 → R1Answer s.params.retryBudget 0#7 r1In →
    PollHit s.params.retryBudget isStartToken tokenIn → payload.length = 512 →
    s.card = .oracle (ready ++ frameIn ++ r1In ++ tokenIn ++ payload ++ [crc0, crc1] ++ rest) →
    frame = commandFrame 17#6 (s.dev.position.extractLsb' 0 32) →
    ∃ n k, exec .read s = .next
      { s with
        dev := { s.dev with position := s.dev.position + 1#33 }
        frame := frame, r1 := .answer 0#7, rxData := [], txData := none, framerResult := .ok, card := .oracle rest
        n := n, k := k
        history := s.history ++ commandPairs frame ready frameIn r1In ++
          received (tokenIn ++ payload ++ [crc0, crc1])
        responses := s.responses ++ [.data payload] }

/-- READ fails with IO after a wrong R1, a Timeout, or a start token that never comes: one response, no
payload byte, the Device State as before (R201 causes 2, 3, 4). -/
def Obligations.ReadFailsWithIo : Prop :=
  ∀ (s : State) (ready frameIn r1In tokenIn rest : List Byte) (frame : Vector Byte 6),
    ReadyIdle s → s.dev.position.toNat < s.dev.blockCount.toNat → 1 ≤ s.params.retryBudget →
    ReadyPoll s.params.retryBudget ready → frameIn.length = 6 →
    frame = commandFrame 17#6 (s.dev.position.extractLsb' 0 32) →
    (∀ r, ((∃ bits, R1Answer s.params.retryBudget bits r1In ∧ bits ≠ 0#7 ∧ r = .answer bits) ∨
        (PollMiss s.params.retryBudget isR1 r1In ∧ r = .timeout)) →
      s.card = .oracle (ready ++ frameIn ++ r1In ++ rest) →
      ∃ n k, exec .read s = .next
        { s with
          frame := frame, r1 := r, rxData := [], txData := none, card := .oracle rest, n := n, k := k
          history := s.history ++ commandPairs frame ready frameIn r1In
          responses := s.responses ++ [.status .io] }) ∧
    (R1Answer s.params.retryBudget 0#7 r1In → PollMiss s.params.retryBudget isStartToken tokenIn →
      s.card = .oracle (ready ++ frameIn ++ r1In ++ tokenIn ++ rest) →
      ∃ n k, exec .read s = .next
        { s with
          frame := frame, r1 := .answer 0#7, rxData := [], txData := none, framerResult := .io, card := .oracle rest
          n := n, k := k
          history := s.history ++ commandPairs frame ready frameIn r1In ++ received tokenIn
          responses := s.responses ++ [.status .io] })

/-- WRITE stores: CMD24 with the cursor, R1 == 0, the block, an accepting data response, the card released in
time; the response is Ok and the cursor moves by one. The engine holds no copy of the sector
afterwards (R50, R64). -/
def Obligations.WriteStores : Prop :=
  ∀ (s : State) (payload : Block) (ready frameIn r1In blockIn busyIn rest : List Byte) (d : Byte)
    (frame : Vector Byte 6),
    ReadyIdle s → s.params.writeEnable = true → s.dev.position.toNat < s.dev.blockCount.toNat →
    1 ≤ s.params.retryBudget → ReadyPoll s.params.retryBudget ready → frameIn.length = 6 →
    R1Answer s.params.retryBudget 0#7 r1In → blockIn.length = 515 → d.toNat % 32 = 5 →
    PollHit s.params.retryBudget isReady busyIn →
    s.card = .oracle (ready ++ frameIn ++ r1In ++ blockIn ++ [d] ++ busyIn ++ rest) →
    frame = commandFrame 24#6 (s.dev.position.extractLsb' 0 32) →
    ∃ n k, exec (.write payload) s = .next
      { s with
        dev := { s.dev with position := s.dev.position + 1#33 }
        frame := frame, r1 := .answer 0#7, rxData := [], txData := none, framerResult := .ok, card := .oracle rest
        n := n, k := k
        history := s.history ++ commandPairs frame ready frameIn r1In ++ blockPairs payload blockIn ++
          received ([d] ++ busyIn)
        responses := s.responses ++ [.status .ok] }

/-- WRITE fails with IO after a wrong R1 or a Timeout (and then sends no data byte), after a data response
that does not accept, and after an exhausted busy poll; the Device State is as before (R201 causes 5 to 8).
The engine holds no copy of the payload afterwards (R64). -/
def Obligations.WriteFailsWithIo : Prop :=
  ∀ (s : State) (payload : Block) (ready frameIn r1In blockIn busyIn rest : List Byte) (d : Byte)
    (frame : Vector Byte 6),
    ReadyIdle s → s.params.writeEnable = true → s.dev.position.toNat < s.dev.blockCount.toNat →
    1 ≤ s.params.retryBudget → ReadyPoll s.params.retryBudget ready → frameIn.length = 6 →
    frame = commandFrame 24#6 (s.dev.position.extractLsb' 0 32) →
    (∀ r, ((∃ bits, R1Answer s.params.retryBudget bits r1In ∧ bits ≠ 0#7 ∧ r = .answer bits) ∨
        (PollMiss s.params.retryBudget isR1 r1In ∧ r = .timeout)) →
      s.card = .oracle (ready ++ frameIn ++ r1In ++ rest) →
      ∃ n k, exec (.write payload) s = .next
        { s with
          frame := frame, r1 := r, rxData := [], txData := none, card := .oracle rest, n := n, k := k
          history := s.history ++ commandPairs frame ready frameIn r1In
          responses := s.responses ++ [.status .io] }) ∧
    (R1Answer s.params.retryBudget 0#7 r1In → blockIn.length = 515 → d.toNat % 32 ≠ 5 →
      s.card = .oracle (ready ++ frameIn ++ r1In ++ blockIn ++ [d] ++ rest) →
      ∃ n k, exec (.write payload) s = .next
        { s with
          frame := frame, r1 := .answer 0#7, rxData := [], txData := none, framerResult := .io, card := .oracle rest
          n := n, k := k
          history := s.history ++ commandPairs frame ready frameIn r1In ++ blockPairs payload blockIn ++
            received [d]
          responses := s.responses ++ [.status .io] }) ∧
    (R1Answer s.params.retryBudget 0#7 r1In → blockIn.length = 515 → d.toNat % 32 = 5 →
      PollMiss s.params.retryBudget isReady busyIn →
      s.card = .oracle (ready ++ frameIn ++ r1In ++ blockIn ++ [d] ++ busyIn ++ rest) →
      ∃ n k, exec (.write payload) s = .next
        { s with
          frame := frame, r1 := .answer 0#7, rxData := [], txData := none, framerResult := .io, card := .oracle rest
          n := n, k := k
          history := s.history ++ commandPairs frame ready frameIn r1In ++ blockPairs payload blockIn ++
            received ([d] ++ busyIn)
          responses := s.responses ++ [.status .io] })

/-- R182: a host operation is accepted only when the engine is IDLE. Accepted, against any card, it produces
exactly one response and the engine is IDLE again. That the model refuses one presented while the engine is busy
is the spec's decision for a model (D19, U5), deduced here for both the lines and `exec` (log 6). -/
def Obligations.OneResponseForEachRequest : Prop :=
  ∀ (i : Instr) (s : State), i.context = .host →
    (busy s = true → exec i s = .refused .requestWhileBusy) ∧
    (∀ r : HostRequest, busy s = true → r.op ≠ 0#3 →
      step { s with request := some r } = .refused .requestWhileBusy) ∧
    (busy s = false → s.stalled = false →
      ∃ t r pairs, exec i s = .next t ∧ t.responses = s.responses ++ [r] ∧ t.phase.top = .idle ∧
        t.history = s.history ++ pairs ∧ pairs.length ≤ exchangesLeft (startRequest i s))

/-- R208: after an operation whose response carries an Error other than Ok the Device State is the Device
State before it, and the phase is (IDLE, NONE). No host operation answers Unsupported (R175, R200). -/
def Obligations.FailedOperationKeepsDeviceState : Prop :=
  ∀ (i : Instr) (s t : State) (e : ErrorKind), i.context = .host → exec i s = .next t →
    t.responses = s.responses ++ [.status e] → e ≠ .ok →
    t.dev = s.dev ∧ t.phase = Phase.idle ∧ e ≠ .unsupported

/-- The frame of the host operations against any card: of the Device State only the cursor can change, and
CSD, reply latch, IdleWait counter, parameters and the host's lines stay; no payload is left by a
READ or a WRITE (R50, R64), and an operation turned away before it, a SEEK or an accessor changes no payload
field; the accessors and SEEK touch neither bus nor card. -/
def Obligations.HostOperationsFrame : Prop :=
  ∀ (i : Instr) (s t : State), i.context = .host → exec i s = .next t →
    t.dev = { s.dev with position := t.dev.position } ∧
    (t.dev.position = s.dev.position ∨ (i = .read ∨ ∃ payload, i = .write payload) ∧
        t.dev.position = s.dev.position + 1#33 ∨ ∃ sector, i = .seek sector ∧ t.dev.position = sector.zeroExtend 33) ∧
    t.csd = s.csd ∧ t.r7 = s.r7 ∧ t.it = s.it ∧ t.params = s.params ∧ t.stalled = s.stalled ∧
    t.request = s.request ∧ t.script = s.script ∧ s.history <+: t.history ∧
    ((t.rxData = s.rxData ∧ t.txData = s.txData ∧ t.history = s.history) ∨
      ((i = .read ∨ ∃ payload, i = .write payload) ∧ t.rxData = [] ∧ t.txData = none)) ∧
    (i ≠ .read → (∀ payload, i ≠ .write payload) →
      t.card = s.card ∧ t.history = s.history ∧ t.frame = s.frame ∧ t.r1 = s.r1 ∧
        t.framerResult = s.framerResult ∧ t.n = s.n ∧ t.k = s.k)

/-- READ and WRITE run step by step are the pseudocode of R177 and R178, against any card. -/
def Obligations.ReadAndWriteAreTheirPseudocode : Prop :=
  ∀ (s : State) (payload : Block), s.phase = Phase.idle → s.stalled = false →
    exec .read s = .next (pseudoRead s) ∧ exec (.write payload) s = .next (pseudoWrite payload s)

/-! ## Initialization (spec/42_init.md) -/

/-- INIT run step by step from reset is the pseudocode of R130 to R136, against any card; once it has ended
nothing starts it again (R137; log 26). -/
def Obligations.InitIsItsPseudocode : Prop :=
  (∀ (p : Params) (card : Card), legalParams p →
    exec .init (State.fresh p card) = .next (pseudoInit (State.fresh p card))) ∧
  (∀ s : State, s.phase.top = .idle ∨ s.phase.top = .opRead ∨ s.phase.top = .opWrite →
    exec .init s = .next s)

/-- R130: from every state of INIT it ends, IDLE, in exactly one of the four outcomes, initialized exactly
when Ready; it answers no request, leaves the parameters and the host's lines alone, and keeps no copy of the block it
received but the CSD latch (R64). -/
def Obligations.InitEndsInOneOutcome : Prop :=
  ∀ s : State, Inv s → s.phase.top.inInit = true → s.stalled = false →
    ∃ t, exec .init s = .next t ∧ t.phase = Phase.idle ∧
      (t.dev.initResult = .ready ∨ t.dev.initResult = .notPresent ∨ t.dev.initResult = .unsupported ∨
        t.dev.initResult = .failed) ∧
      (t.dev.initialized = true ↔ t.dev.initResult = .ready) ∧
      (t.dev.present = true ↔ t.dev.initResult ≠ .notPresent) ∧
      t.params = s.params ∧ t.rxData = [] ∧ t.txData = none ∧ t.request = s.request ∧ t.script = s.script ∧
      t.responses = s.responses ∧ s.history <+: t.history ∧ Inv t

/-- R138: the transition table of INIT. A step of INIT stays in its step, or takes one of the rows, under the
row's condition on what the procedure left. -/
def Obligations.InitTransitionTable : Prop :=
  ∀ s t : State, Inv s → s.phase.top.inInit = true → step s = .next t →
    (t.phase.top = s.phase.top ∧ t.dev.initResult = .pending ∧
      (s.phase.top = .initIdleWait → s.phase.acmd = true → t.phase.acmd = false →
        t.r1 = .answer 1#7 ∧ t.it = s.it + 1 ∧ t.it < s.params.initBudget)) ∨
    (s.phase.top = .initReset ∧ t.phase.top = .initVoltage ∧ t.r1 = .answer 1#7 ∧ t.dev.present = true ∧
      t.dev.initResult = .pending) ∨
    (s.phase.top = .initReset ∧ t.phase.top = .idle ∧ t.r1 ≠ .answer 1#7 ∧ t.dev.initResult = .notPresent) ∨
    (s.phase.top = .initVoltage ∧ t.phase.top = .initIdleWait ∧ t.r1 = .answer 1#7 ∧
      t.r7[2] &&& 0x0F#8 = 0x01#8 ∧ t.r7[3] = 0xA5#8 ∧ t.it = 0 ∧ t.dev.initResult = .pending) ∨
    (s.phase.top = .initVoltage ∧ t.phase.top = .idle ∧
      (t.r1 ≠ .answer 1#7 ∨ t.r7[2] &&& 0x0F#8 ≠ 0x01#8 ∨ t.r7[3] ≠ 0xA5#8) ∧
      t.dev.initResult = .unsupported) ∨
    (s.phase.top = .initIdleWait ∧ t.phase.top = .idle ∧ t.dev.initResult = .failed ∧
      (t.r1 = .timeout ∨ (s.phase.acmd = true ∧ t.r1 = .answer 1#7 ∧ t.it = s.params.initBudget))) ∨
    (s.phase.top = .initIdleWait ∧ s.phase.acmd = true ∧ t.phase.top = .initReadReg ∧
      (∃ bits, t.r1 = .answer bits ∧ bits ≠ 1#7) ∧ t.dev.initResult = .pending) ∨
    (s.phase.top = .initReadReg ∧ t.phase.top = .idle ∧ t.r1 ≠ .answer 0#7 ∧ t.dev.initResult = .failed) ∨
    (s.phase.top = .initReadReg ∧ t.phase.top = .idle ∧ t.r1 = .answer 0#7 ∧
      ((t.framerResult = .io ∧ s.phase.sub = .rxToken ∧ t.n = s.params.retryBudget ∧
          t.dev.initResult = .failed) ∨
        (t.framerResult = .ok ∧ t.csd[0].extractLsb' 6 2 ≠ s.params.csdHcStruct ∧
          t.dev.initResult = .unsupported) ∨
        (t.framerResult = .ok ∧ t.csd[0].extractLsb' 6 2 = s.params.csdHcStruct ∧
          t.dev.initResult = .ready ∧ t.dev.initialized = true ∧ t.dev.blockSize = 512#33 ∧
          t.dev.blockCount = csdCount s.params t.csd ∧ t.dev.position = 0#33)))

/-- A card that answers every command as R116 to R120 expect, one IdleWait iteration, brings the engine from
reset to Ready with the capacity of its CSD, at least 63 exchanges (R139). -/
def Obligations.InitReachesReady : Prop :=
  ∀ (p : Params) (y0 y8 y55 y41 y9 f0 f8 f55 f41 f9 a0 a8 a55 a41 a9 tokenIn rest : List Byte)
    (b0 b1 b2 b3 crc0 crc1 : Byte) (bits : BitVec 7) (register : Csd),
    legalParams p →
    ReadyPoll p.retryBudget y0 → ReadyPoll p.retryBudget y8 → ReadyPoll p.retryBudget y55 →
    ReadyPoll p.retryBudget y41 → ReadyPoll p.retryBudget y9 →
    f0.length = 6 → f8.length = 6 → f55.length = 6 → f41.length = 6 → f9.length = 6 →
    R1Answer p.retryBudget 1#7 a0 → R1Answer p.retryBudget 1#7 a8 → R1Answer p.retryBudget bits a55 →
    R1Answer p.retryBudget 0#7 a41 → R1Answer p.retryBudget 0#7 a9 →
    b2.toNat % 16 = 1 → b3 = 0xA5#8 → PollHit p.retryBudget isStartToken tokenIn →
    register[0].extractLsb' 6 2 = p.csdHcStruct →
    ∃ t, exec .init (State.fresh p (.oracle (y0 ++ f0 ++ a0 ++ (y8 ++ f8 ++ a8 ++ [b0, b1, b2, b3]) ++
        (y55 ++ f55 ++ a55) ++ (y41 ++ f41 ++ a41) ++
        (y9 ++ f9 ++ a9 ++ tokenIn ++ register.toList ++ [crc0, crc1]) ++ rest))) = .next t ∧
      t.phase = Phase.idle ∧ t.csd = register ∧ t.r7 = #v[b0, b1, b2, b3] ∧ t.it = 1 ∧
      t.card = .oracle rest ∧ t.responses = [] ∧ 63 ≤ t.history.length ∧
      t.dev = { present := true, initialized := true, initResult := .ready, blockSize := 512#33
                blockCount := csdCount p register, position := 0#33 }

/-! ## The whole machine -/

/-- The invariant holds at reset, whatever the parameters of R6 and whatever the card. -/
def Obligations.InvAtReset : Prop :=
  Inv State.reset ∧ ∀ (p : Params) (card : Card), legalParams p → card.wf = true → Inv (State.fresh p card)

/-- Every step keeps the invariant. -/
def Obligations.StepKeepsInv : Prop :=
  ∀ s t : State, Inv s → step s = .next t → Inv t

/-- R27: between operations an initialized device has block size 512 (a) and its cursor in `0 ≤ position ≤
blockCount`, which the spec marks as derived from R176 to R178 (b); a cursor at the sector count makes READ and
WRITE fail with OutOfBounds and no bus activity (c); after initialization has ended presence, outcome and
geometry never change again (d). -/
def Obligations.DeviceStateRules : Prop :=
  ∀ s : State, Inv s →
    (s.dev.initialized = true → s.dev.blockSize = 512#33 ∧ s.dev.position.toNat ≤ s.dev.blockCount.toNat) ∧
    (∀ payload, s.phase = Phase.idle → s.dev.initialized = true → s.dev.position = s.dev.blockCount →
      s.params.writeEnable = true →
      exec .read s = .next { s with responses := s.responses ++ [.status .outOfBounds] } ∧
      exec (.write payload) s = .next { s with responses := s.responses ++ [.status .outOfBounds] }) ∧
    (∀ t, step s = .next t → s.phase.top.inInit = false →
      t.phase.top.inInit = false ∧ t.dev = { s.dev with position := t.dev.position })

/-- R181: the cursor changes in exactly four ways: to 0 at Ready, to the sector of a successful SEEK, and by
one with the response of a READ or a WRITE that is Ok; it never exceeds the sector count. -/
def Obligations.CursorMoves : Prop :=
  ∀ s t : State, Inv s → step s = .next t →
    (t.dev.initialized = true → t.dev.position.toNat ≤ t.dev.blockCount.toNat) ∧
    (t.dev.position = s.dev.position ∨
      (s.phase.top = .initReadReg ∧ t.phase.top = .idle ∧ t.dev.initResult = .ready ∧ t.dev.position = 0#33) ∨
      (s.phase.top = .idle ∧ t.phase.top = .idle ∧ t.responses = s.responses ++ [.status .ok] ∧
        ∃ r : HostRequest, (s.request = some r ∨ s.script.head? = some r) ∧ r.op = 1#3 ∧
          t.dev.position.toNat = r.sector.toNat) ∨
      (s.phase.top = .opRead ∧ t.phase.top = .idle ∧
        (∃ payload : List Byte, payload.length = 512 ∧ t.responses = s.responses ++ [.data payload]) ∧
        t.dev.position.toNat = s.dev.position.toNat + 1) ∨
      (s.phase.top = .opWrite ∧ t.phase.top = .idle ∧ t.responses = s.responses ++ [.status .ok] ∧
        t.dev.position.toNat = s.dev.position.toNat + 1))

/-- A step makes at most one exchange (R7); an IDLE engine makes one only in the step that accepts a READ or a
WRITE, which the model deduces (log 10); a byte other than 0xFF goes out in three places only: the six frame
bytes, the start token of an outbound block, its 512 payload bytes (R103, with the spec's own choice D5). -/
def Obligations.SentBytes : Prop :=
  ∀ s t : State, Inv s → step s = .next t →
    (busy s = true → ∃ o i, t.history = s.history ++ [(o, i)] ∧
      (s.phase.sub = .cmdFrame → ∃ h : s.k < 6, o = s.frame[s.k]) ∧
      (s.phase.sub = .txToken → o = 0xFE#8) ∧
      (s.phase.sub = .txPayload → ∃ payload, s.txData = some payload ∧ payload.val[s.k]? = some o) ∧
      (s.phase.sub ≠ .cmdFrame → s.phase.sub ≠ .txToken → s.phase.sub ≠ .txPayload → o = 0xFF#8)) ∧
    (busy s = false → (t.history = s.history ∧ busy t = false) ∨
      ∃ i, t.history = s.history ++ [(0xFF#8, i)] ∧ (t.phase.top = .opRead ∨ t.phase.top = .opWrite))

/-- R51: the engine's next step is a function of its own state and of the received byte only. Two states that
differ in the card, in the free values taken and in the record, but receive the same byte, lead to states that
differ only there. -/
def Obligations.NextStepDependsOnTheByteOnly : Prop :=
  ∀ (s : State) (card : Card) (draws : Nat) (history : List (Byte × Byte)) (responses : List Response)
    (i : Byte), cardByte s = i →
    cardByte { s with card := card, draws := draws } = i → busy s = true →
    ∃ t added, step { s with request := none, stalled := false } = .next t ∧
      t.responses = s.responses ++ added ∧
      ∃ card' draws', step { s with request := none, stalled := false, card := card, draws := draws
                                    history := history, responses := responses } =
        .next { t with card := card', draws := draws', history := history ++ [(outByte s, i)]
                       responses := responses ++ added }

/-- R58: a sector at or above the sector count is never sent: while CMD17 or CMD24 is prepared, sent or
answered (CMD_READY, CMD_FRAME, CMD_R1) the cursor is below the sector count, and from the first exchange of the
command to the last byte of its frame the 32-bit argument in the frame is the cursor itself. -/
def Obligations.SectorsSentAreInRange : Prop :=
  ∀ s : State, Inv s → (s.phase.top = .opRead ∨ s.phase.top = .opWrite) → s.phase.sub.inCommand = true →
    s.dev.position.toNat < s.dev.blockCount.toNat ∧
    ((s.phase.sub = .cmdReady ∧ s.n ≠ 0) ∨ s.phase.sub = .cmdFrame →
      (ofBe32 s.frame[1] s.frame[2] s.frame[3] s.frame[4]).toNat = s.dev.position.toNat)

/-- The exchange bounds per operation of R238, whose table the spec marks as derived, with `B = RETRY_BUDGET`
and `I = INIT_BUDGET`, against any card. -/
def Obligations.ExchangeBounds : Prop :=
  ∀ (s : State), s.stalled = false → legalParams s.params →
    (∀ c, ∃ pairs, (sendCommand c s).history = s.history ++ pairs ∧ 8 ≤ pairs.length ∧
      pairs.length ≤ 2 * s.params.retryBudget + 6) ∧
    (∀ length, length = 16 ∨ length = 512 → ∃ pairs, (receive length s).history = s.history ++ pairs ∧
      min s.params.retryBudget (length + 3) ≤ pairs.length ∧
      pairs.length ≤ s.params.retryBudget + length + 2) ∧
    (∃ pairs, (transmit s).history = s.history ++ pairs ∧ 516 ≤ pairs.length ∧
      pairs.length ≤ s.params.retryBudget + 516) ∧
    (∀ card, ∃ t, exec .init (State.fresh s.params card) = .next t ∧ 8 ≤ t.history.length ∧
      t.history.length ≤ (2 * s.params.retryBudget + 6) * (3 + 2 * s.params.initBudget) +
        s.params.retryBudget + 22) ∧
    (s.phase = Phase.idle →
      (∀ sector, ∃ t, exec (.seek sector) s = .next t ∧ t.history = s.history) ∧
      (∃ t, exec .blocksize s = .next t ∧ t.history = s.history) ∧
      (∃ t, exec .blockcount s = .next t ∧ t.history = s.history) ∧
      (∃ t pairs, exec .read s = .next t ∧ t.history = s.history ++ pairs ∧
        pairs.length ≤ 3 * s.params.retryBudget + 520) ∧
      (∀ payload, ∃ t pairs, exec (.write payload) s = .next t ∧ t.history = s.history ++ pairs ∧
        pairs.length ≤ 3 * s.params.retryBudget + 522))

/-- R210: no halt, ever: from every state, whatever the card, the engine is IDLE after a bounded number of
steps, provided exchanges complete and no request is pressed on it while it is busy. The numbers are those of
R238 and R139, which the spec derives. -/
def Obligations.NoHaltEver : Prop :=
  ∀ s : State, s.stalled = false → s.request = none →
    ∃ steps t, steps ≤ exchangesLeft s ∧ Host.Core.run Sys2Proof.core steps s = .next t ∧
      busy t = false ∧
      (s.phase.legal = true → legalParams s.params → s.phase.top.inInit = true →
        exchangesLeft s ≤ (2 * s.params.retryBudget + 6) * (3 + 2 * s.params.initBudget) +
          s.params.retryBudget + 22) ∧
      (s.phase.legal = true → legalParams s.params → s.phase.top.inInit = false →
        exchangesLeft s ≤ 3 * s.params.retryBudget + 522)

/-- R237: when an exchange does not return, the engine takes no further step: a busy engine and the
meanings that always make an exchange stop with the one fault; an IDLE engine only takes steps without one. -/
def Obligations.StuckInAnExchange : Prop :=
  ∀ s : State, s.stalled = true →
    (busy s = true → s.request = none → step s = .fault .exchangeNeverCompletes) ∧
    (∀ i : Instr, i.context = .command ∨ (∃ payload, i = .txblock payload) →
      exec i s = .fault .exchangeNeverCompletes) ∧
    (∀ t, step s = .next t → busy s = false ∧ t.history = s.history)

/-- The store of the mock card: a sector reads back as written, every other byte reads as before, and the
canonical form is kept; one exchange with the mock changes the store only when it is the last byte of a block
being captured. -/
def Obligations.MockStoreLaws : Prop :=
  (∀ (m : Memory) (sector : Nat) (bytes : List Byte), Memory.wf m = true → bytes.length = 512 →
    Memory.wf (Memory.writeSector m sector bytes) = true ∧
    Memory.readSector (Memory.writeSector m sector bytes) sector = bytes ∧
    (∀ other, other ≠ sector →
      Memory.readSector (Memory.writeSector m sector bytes) other = Memory.readSector m other)) ∧
  (∀ (m : Mock) (o : Byte),
    (∀ sector bytes, m.capture = .collecting sector bytes → bytes.length ≠ 513) →
    (m.answer o).2.store = m.store)

/-- R63, with the mock card as the premise on the oracle: a WRITE of 512 bytes to sector K and a READ of
sector K return the identical bytes, and every other sector is as it was. -/
def Obligations.ReadAfterWrite : Prop :=
  ∀ (s : State) (m : Mock) (sector : BitVec 32) (payload : Block),
    ReadyIdle s → s.params.writeEnable = true → sector.toNat < s.dev.blockCount.toNat →
    s.card = .mock m → Memory.wf m.store = true →
    m.queue = [] → m.collected = [] → m.capture = .off → m.overrides = [] →
    m.wresp &&& 0x1F#8 = 0x05#8 →
    m.ncr < s.params.retryBudget → m.nac < s.params.retryBudget → m.busy < s.params.retryBudget →
    ∃ t1 t2 t3 t4 m', exec (.seek sector) s = .next t1 ∧ exec (.write payload) t1 = .next t2 ∧
      exec (.seek sector) t2 = .next t3 ∧ exec .read t3 = .next t4 ∧
      t4.responses = s.responses ++ [.status .ok, .status .ok, .status .ok, .data payload.val] ∧
      t4.card = .mock m' ∧
      ∀ other, other ≠ sector.toNat → m'.store.readSector other = m.store.readSector other

end
end

