-- ==== Sys2Proof/Laws/State.lean ====
section
/-! SUPPORT. What each named update does to each field, one lemma a field. -/

namespace Sys2Proof.Machine

@[simp] theorem goto_phase_sub (sub : SubPhase) (s : State) : (goto sub s).phase.sub = sub := rfl
@[simp] theorem goto_phase_top (sub : SubPhase) (s : State) : (goto sub s).phase.top = s.phase.top := rfl
@[simp] theorem goto_phase_acmd (sub : SubPhase) (s : State) : (goto sub s).phase.acmd = s.phase.acmd := rfl
@[simp] theorem goto_dev (sub : SubPhase) (s : State) : (goto sub s).dev = s.dev := rfl
@[simp] theorem goto_csd (sub : SubPhase) (s : State) : (goto sub s).csd = s.csd := rfl
@[simp] theorem goto_r7 (sub : SubPhase) (s : State) : (goto sub s).r7 = s.r7 := rfl
@[simp] theorem goto_r1 (sub : SubPhase) (s : State) : (goto sub s).r1 = s.r1 := rfl
@[simp] theorem goto_frame (sub : SubPhase) (s : State) : (goto sub s).frame = s.frame := rfl
@[simp] theorem goto_n (sub : SubPhase) (s : State) : (goto sub s).n = s.n := rfl
@[simp] theorem goto_k (sub : SubPhase) (s : State) : (goto sub s).k = s.k := rfl
@[simp] theorem goto_it (sub : SubPhase) (s : State) : (goto sub s).it = s.it := rfl
@[simp] theorem goto_params (sub : SubPhase) (s : State) : (goto sub s).params = s.params := rfl
@[simp] theorem goto_rxData (sub : SubPhase) (s : State) : (goto sub s).rxData = s.rxData := rfl
@[simp] theorem goto_txData (sub : SubPhase) (s : State) : (goto sub s).txData = s.txData := rfl
@[simp] theorem goto_framerResult (sub : SubPhase) (s : State) : (goto sub s).framerResult = s.framerResult := rfl
@[simp] theorem goto_card (sub : SubPhase) (s : State) : (goto sub s).card = s.card := rfl
@[simp] theorem goto_stalled (sub : SubPhase) (s : State) : (goto sub s).stalled = s.stalled := rfl
@[simp] theorem goto_request (sub : SubPhase) (s : State) : (goto sub s).request = s.request := rfl
@[simp] theorem goto_script (sub : SubPhase) (s : State) : (goto sub s).script = s.script := rfl
@[simp] theorem goto_draws (sub : SubPhase) (s : State) : (goto sub s).draws = s.draws := rfl
@[simp] theorem goto_history (sub : SubPhase) (s : State) : (goto sub s).history = s.history := rfl
@[simp] theorem goto_responses (sub : SubPhase) (s : State) : (goto sub s).responses = s.responses := rfl

@[simp] theorem startPoll_phase_sub (sub : SubPhase) (s : State) : (startPoll sub s).phase.sub = sub := rfl
@[simp] theorem startPoll_n (sub : SubPhase) (s : State) : (startPoll sub s).n = 0 := rfl
@[simp] theorem startPoll_phase_top (sub : SubPhase) (s : State) : (startPoll sub s).phase.top = s.phase.top := rfl
@[simp] theorem startPoll_phase_acmd (sub : SubPhase) (s : State) : (startPoll sub s).phase.acmd = s.phase.acmd := rfl
@[simp] theorem startPoll_dev (sub : SubPhase) (s : State) : (startPoll sub s).dev = s.dev := rfl
@[simp] theorem startPoll_csd (sub : SubPhase) (s : State) : (startPoll sub s).csd = s.csd := rfl
@[simp] theorem startPoll_r7 (sub : SubPhase) (s : State) : (startPoll sub s).r7 = s.r7 := rfl
@[simp] theorem startPoll_r1 (sub : SubPhase) (s : State) : (startPoll sub s).r1 = s.r1 := rfl
@[simp] theorem startPoll_frame (sub : SubPhase) (s : State) : (startPoll sub s).frame = s.frame := rfl
@[simp] theorem startPoll_k (sub : SubPhase) (s : State) : (startPoll sub s).k = s.k := rfl
@[simp] theorem startPoll_it (sub : SubPhase) (s : State) : (startPoll sub s).it = s.it := rfl
@[simp] theorem startPoll_params (sub : SubPhase) (s : State) : (startPoll sub s).params = s.params := rfl
@[simp] theorem startPoll_rxData (sub : SubPhase) (s : State) : (startPoll sub s).rxData = s.rxData := rfl
@[simp] theorem startPoll_txData (sub : SubPhase) (s : State) : (startPoll sub s).txData = s.txData := rfl
@[simp] theorem startPoll_framerResult (sub : SubPhase) (s : State) : (startPoll sub s).framerResult = s.framerResult := rfl
@[simp] theorem startPoll_card (sub : SubPhase) (s : State) : (startPoll sub s).card = s.card := rfl
@[simp] theorem startPoll_stalled (sub : SubPhase) (s : State) : (startPoll sub s).stalled = s.stalled := rfl
@[simp] theorem startPoll_request (sub : SubPhase) (s : State) : (startPoll sub s).request = s.request := rfl
@[simp] theorem startPoll_script (sub : SubPhase) (s : State) : (startPoll sub s).script = s.script := rfl
@[simp] theorem startPoll_draws (sub : SubPhase) (s : State) : (startPoll sub s).draws = s.draws := rfl
@[simp] theorem startPoll_history (sub : SubPhase) (s : State) : (startPoll sub s).history = s.history := rfl
@[simp] theorem startPoll_responses (sub : SubPhase) (s : State) : (startPoll sub s).responses = s.responses := rfl

@[simp] theorem startRun_phase_sub (sub : SubPhase) (s : State) : (startRun sub s).phase.sub = sub := rfl
@[simp] theorem startRun_k (sub : SubPhase) (s : State) : (startRun sub s).k = 0 := rfl
@[simp] theorem startRun_phase_top (sub : SubPhase) (s : State) : (startRun sub s).phase.top = s.phase.top := rfl
@[simp] theorem startRun_phase_acmd (sub : SubPhase) (s : State) : (startRun sub s).phase.acmd = s.phase.acmd := rfl
@[simp] theorem startRun_dev (sub : SubPhase) (s : State) : (startRun sub s).dev = s.dev := rfl
@[simp] theorem startRun_csd (sub : SubPhase) (s : State) : (startRun sub s).csd = s.csd := rfl
@[simp] theorem startRun_r7 (sub : SubPhase) (s : State) : (startRun sub s).r7 = s.r7 := rfl
@[simp] theorem startRun_r1 (sub : SubPhase) (s : State) : (startRun sub s).r1 = s.r1 := rfl
@[simp] theorem startRun_frame (sub : SubPhase) (s : State) : (startRun sub s).frame = s.frame := rfl
@[simp] theorem startRun_n (sub : SubPhase) (s : State) : (startRun sub s).n = s.n := rfl
@[simp] theorem startRun_it (sub : SubPhase) (s : State) : (startRun sub s).it = s.it := rfl
@[simp] theorem startRun_params (sub : SubPhase) (s : State) : (startRun sub s).params = s.params := rfl
@[simp] theorem startRun_rxData (sub : SubPhase) (s : State) : (startRun sub s).rxData = s.rxData := rfl
@[simp] theorem startRun_txData (sub : SubPhase) (s : State) : (startRun sub s).txData = s.txData := rfl
@[simp] theorem startRun_framerResult (sub : SubPhase) (s : State) : (startRun sub s).framerResult = s.framerResult := rfl
@[simp] theorem startRun_card (sub : SubPhase) (s : State) : (startRun sub s).card = s.card := rfl
@[simp] theorem startRun_stalled (sub : SubPhase) (s : State) : (startRun sub s).stalled = s.stalled := rfl
@[simp] theorem startRun_request (sub : SubPhase) (s : State) : (startRun sub s).request = s.request := rfl
@[simp] theorem startRun_script (sub : SubPhase) (s : State) : (startRun sub s).script = s.script := rfl
@[simp] theorem startRun_draws (sub : SubPhase) (s : State) : (startRun sub s).draws = s.draws := rfl
@[simp] theorem startRun_history (sub : SubPhase) (s : State) : (startRun sub s).history = s.history := rfl
@[simp] theorem startRun_responses (sub : SubPhase) (s : State) : (startRun sub s).responses = s.responses := rfl

@[simp] theorem startCommand_phase (top : TopPhase) (acmd : Bool) (s : State) : (startCommand top acmd s).phase = { top := top, sub := .cmdReady, acmd := acmd } := rfl
@[simp] theorem startCommand_n (top : TopPhase) (acmd : Bool) (s : State) : (startCommand top acmd s).n = 0 := rfl
@[simp] theorem startCommand_k (top : TopPhase) (acmd : Bool) (s : State) : (startCommand top acmd s).k = 0 := rfl
@[simp] theorem startCommand_dev (top : TopPhase) (acmd : Bool) (s : State) : (startCommand top acmd s).dev = s.dev := rfl
@[simp] theorem startCommand_csd (top : TopPhase) (acmd : Bool) (s : State) : (startCommand top acmd s).csd = s.csd := rfl
@[simp] theorem startCommand_r7 (top : TopPhase) (acmd : Bool) (s : State) : (startCommand top acmd s).r7 = s.r7 := rfl
@[simp] theorem startCommand_r1 (top : TopPhase) (acmd : Bool) (s : State) : (startCommand top acmd s).r1 = s.r1 := rfl
@[simp] theorem startCommand_frame (top : TopPhase) (acmd : Bool) (s : State) : (startCommand top acmd s).frame = s.frame := rfl
@[simp] theorem startCommand_it (top : TopPhase) (acmd : Bool) (s : State) : (startCommand top acmd s).it = s.it := rfl
@[simp] theorem startCommand_params (top : TopPhase) (acmd : Bool) (s : State) : (startCommand top acmd s).params = s.params := rfl
@[simp] theorem startCommand_rxData (top : TopPhase) (acmd : Bool) (s : State) : (startCommand top acmd s).rxData = s.rxData := rfl
@[simp] theorem startCommand_txData (top : TopPhase) (acmd : Bool) (s : State) : (startCommand top acmd s).txData = s.txData := rfl
@[simp] theorem startCommand_framerResult (top : TopPhase) (acmd : Bool) (s : State) : (startCommand top acmd s).framerResult = s.framerResult := rfl
@[simp] theorem startCommand_card (top : TopPhase) (acmd : Bool) (s : State) : (startCommand top acmd s).card = s.card := rfl
@[simp] theorem startCommand_stalled (top : TopPhase) (acmd : Bool) (s : State) : (startCommand top acmd s).stalled = s.stalled := rfl
@[simp] theorem startCommand_request (top : TopPhase) (acmd : Bool) (s : State) : (startCommand top acmd s).request = s.request := rfl
@[simp] theorem startCommand_script (top : TopPhase) (acmd : Bool) (s : State) : (startCommand top acmd s).script = s.script := rfl
@[simp] theorem startCommand_draws (top : TopPhase) (acmd : Bool) (s : State) : (startCommand top acmd s).draws = s.draws := rfl
@[simp] theorem startCommand_history (top : TopPhase) (acmd : Bool) (s : State) : (startCommand top acmd s).history = s.history := rfl
@[simp] theorem startCommand_responses (top : TopPhase) (acmd : Bool) (s : State) : (startCommand top acmd s).responses = s.responses := rfl

@[simp] theorem startReceive_phase_sub (s : State) : (startReceive s).phase.sub = .rxToken := rfl
@[simp] theorem startReceive_n (s : State) : (startReceive s).n = 0 := rfl
@[simp] theorem startReceive_phase_top (s : State) : (startReceive s).phase.top = s.phase.top := rfl
@[simp] theorem startReceive_phase_acmd (s : State) : (startReceive s).phase.acmd = s.phase.acmd := rfl
@[simp] theorem startReceive_dev (s : State) : (startReceive s).dev = s.dev := rfl
@[simp] theorem startReceive_csd (s : State) : (startReceive s).csd = s.csd := rfl
@[simp] theorem startReceive_r7 (s : State) : (startReceive s).r7 = s.r7 := rfl
@[simp] theorem startReceive_r1 (s : State) : (startReceive s).r1 = s.r1 := rfl
@[simp] theorem startReceive_frame (s : State) : (startReceive s).frame = s.frame := rfl
@[simp] theorem startReceive_k (s : State) : (startReceive s).k = s.k := rfl
@[simp] theorem startReceive_it (s : State) : (startReceive s).it = s.it := rfl
@[simp] theorem startReceive_params (s : State) : (startReceive s).params = s.params := rfl
@[simp] theorem startReceive_rxData (s : State) : (startReceive s).rxData = s.rxData := rfl
@[simp] theorem startReceive_txData (s : State) : (startReceive s).txData = s.txData := rfl
@[simp] theorem startReceive_framerResult (s : State) : (startReceive s).framerResult = s.framerResult := rfl
@[simp] theorem startReceive_card (s : State) : (startReceive s).card = s.card := rfl
@[simp] theorem startReceive_stalled (s : State) : (startReceive s).stalled = s.stalled := rfl
@[simp] theorem startReceive_request (s : State) : (startReceive s).request = s.request := rfl
@[simp] theorem startReceive_script (s : State) : (startReceive s).script = s.script := rfl
@[simp] theorem startReceive_draws (s : State) : (startReceive s).draws = s.draws := rfl
@[simp] theorem startReceive_history (s : State) : (startReceive s).history = s.history := rfl
@[simp] theorem startReceive_responses (s : State) : (startReceive s).responses = s.responses := rfl

@[simp] theorem startPayload_phase_sub (s : State) : (startPayload s).phase.sub = .rxPayload := rfl
@[simp] theorem startPayload_k (s : State) : (startPayload s).k = 0 := rfl
@[simp] theorem startPayload_rxData (s : State) : (startPayload s).rxData = [] := rfl
@[simp] theorem startPayload_phase_top (s : State) : (startPayload s).phase.top = s.phase.top := rfl
@[simp] theorem startPayload_phase_acmd (s : State) : (startPayload s).phase.acmd = s.phase.acmd := rfl
@[simp] theorem startPayload_dev (s : State) : (startPayload s).dev = s.dev := rfl
@[simp] theorem startPayload_csd (s : State) : (startPayload s).csd = s.csd := rfl
@[simp] theorem startPayload_r7 (s : State) : (startPayload s).r7 = s.r7 := rfl
@[simp] theorem startPayload_r1 (s : State) : (startPayload s).r1 = s.r1 := rfl
@[simp] theorem startPayload_frame (s : State) : (startPayload s).frame = s.frame := rfl
@[simp] theorem startPayload_n (s : State) : (startPayload s).n = s.n := rfl
@[simp] theorem startPayload_it (s : State) : (startPayload s).it = s.it := rfl
@[simp] theorem startPayload_params (s : State) : (startPayload s).params = s.params := rfl
@[simp] theorem startPayload_txData (s : State) : (startPayload s).txData = s.txData := rfl
@[simp] theorem startPayload_framerResult (s : State) : (startPayload s).framerResult = s.framerResult := rfl
@[simp] theorem startPayload_card (s : State) : (startPayload s).card = s.card := rfl
@[simp] theorem startPayload_stalled (s : State) : (startPayload s).stalled = s.stalled := rfl
@[simp] theorem startPayload_request (s : State) : (startPayload s).request = s.request := rfl
@[simp] theorem startPayload_script (s : State) : (startPayload s).script = s.script := rfl
@[simp] theorem startPayload_draws (s : State) : (startPayload s).draws = s.draws := rfl
@[simp] theorem startPayload_history (s : State) : (startPayload s).history = s.history := rfl
@[simp] theorem startPayload_responses (s : State) : (startPayload s).responses = s.responses := rfl

@[simp] theorem endProcedure_phase_sub (s : State) : (endProcedure s).phase.sub = .none := rfl
@[simp] theorem endProcedure_phase_top (s : State) : (endProcedure s).phase.top = s.phase.top := rfl
@[simp] theorem endProcedure_phase_acmd (s : State) : (endProcedure s).phase.acmd = s.phase.acmd := rfl
@[simp] theorem endProcedure_dev (s : State) : (endProcedure s).dev = s.dev := rfl
@[simp] theorem endProcedure_csd (s : State) : (endProcedure s).csd = s.csd := rfl
@[simp] theorem endProcedure_r7 (s : State) : (endProcedure s).r7 = s.r7 := rfl
@[simp] theorem endProcedure_r1 (s : State) : (endProcedure s).r1 = s.r1 := rfl
@[simp] theorem endProcedure_frame (s : State) : (endProcedure s).frame = s.frame := rfl
@[simp] theorem endProcedure_n (s : State) : (endProcedure s).n = s.n := rfl
@[simp] theorem endProcedure_k (s : State) : (endProcedure s).k = s.k := rfl
@[simp] theorem endProcedure_it (s : State) : (endProcedure s).it = s.it := rfl
@[simp] theorem endProcedure_params (s : State) : (endProcedure s).params = s.params := rfl
@[simp] theorem endProcedure_rxData (s : State) : (endProcedure s).rxData = s.rxData := rfl
@[simp] theorem endProcedure_txData (s : State) : (endProcedure s).txData = s.txData := rfl
@[simp] theorem endProcedure_framerResult (s : State) : (endProcedure s).framerResult = s.framerResult := rfl
@[simp] theorem endProcedure_card (s : State) : (endProcedure s).card = s.card := rfl
@[simp] theorem endProcedure_stalled (s : State) : (endProcedure s).stalled = s.stalled := rfl
@[simp] theorem endProcedure_request (s : State) : (endProcedure s).request = s.request := rfl
@[simp] theorem endProcedure_script (s : State) : (endProcedure s).script = s.script := rfl
@[simp] theorem endProcedure_draws (s : State) : (endProcedure s).draws = s.draws := rfl
@[simp] theorem endProcedure_history (s : State) : (endProcedure s).history = s.history := rfl
@[simp] theorem endProcedure_responses (s : State) : (endProcedure s).responses = s.responses := rfl

@[simp] theorem endFramer_phase_sub (e : ErrorKind) (s : State) : (endFramer e s).phase.sub = .none := rfl
@[simp] theorem endFramer_framerResult (e : ErrorKind) (s : State) : (endFramer e s).framerResult = e := rfl
@[simp] theorem endFramer_phase_top (e : ErrorKind) (s : State) : (endFramer e s).phase.top = s.phase.top := rfl
@[simp] theorem endFramer_phase_acmd (e : ErrorKind) (s : State) : (endFramer e s).phase.acmd = s.phase.acmd := rfl
@[simp] theorem endFramer_dev (e : ErrorKind) (s : State) : (endFramer e s).dev = s.dev := rfl
@[simp] theorem endFramer_csd (e : ErrorKind) (s : State) : (endFramer e s).csd = s.csd := rfl
@[simp] theorem endFramer_r7 (e : ErrorKind) (s : State) : (endFramer e s).r7 = s.r7 := rfl
@[simp] theorem endFramer_r1 (e : ErrorKind) (s : State) : (endFramer e s).r1 = s.r1 := rfl
@[simp] theorem endFramer_frame (e : ErrorKind) (s : State) : (endFramer e s).frame = s.frame := rfl
@[simp] theorem endFramer_n (e : ErrorKind) (s : State) : (endFramer e s).n = s.n := rfl
@[simp] theorem endFramer_k (e : ErrorKind) (s : State) : (endFramer e s).k = s.k := rfl
@[simp] theorem endFramer_it (e : ErrorKind) (s : State) : (endFramer e s).it = s.it := rfl
@[simp] theorem endFramer_params (e : ErrorKind) (s : State) : (endFramer e s).params = s.params := rfl
@[simp] theorem endFramer_rxData (e : ErrorKind) (s : State) : (endFramer e s).rxData = s.rxData := rfl
@[simp] theorem endFramer_txData (e : ErrorKind) (s : State) : (endFramer e s).txData = s.txData := rfl
@[simp] theorem endFramer_card (e : ErrorKind) (s : State) : (endFramer e s).card = s.card := rfl
@[simp] theorem endFramer_stalled (e : ErrorKind) (s : State) : (endFramer e s).stalled = s.stalled := rfl
@[simp] theorem endFramer_request (e : ErrorKind) (s : State) : (endFramer e s).request = s.request := rfl
@[simp] theorem endFramer_script (e : ErrorKind) (s : State) : (endFramer e s).script = s.script := rfl
@[simp] theorem endFramer_draws (e : ErrorKind) (s : State) : (endFramer e s).draws = s.draws := rfl
@[simp] theorem endFramer_history (e : ErrorKind) (s : State) : (endFramer e s).history = s.history := rfl
@[simp] theorem endFramer_responses (e : ErrorKind) (s : State) : (endFramer e s).responses = s.responses := rfl

@[simp] theorem record_history (o i : Byte) (s : State) : (record o i s).history = s.history ++ [(o, i)] := rfl
@[simp] theorem record_dev (o i : Byte) (s : State) : (record o i s).dev = s.dev := rfl
@[simp] theorem record_csd (o i : Byte) (s : State) : (record o i s).csd = s.csd := rfl
@[simp] theorem record_r7 (o i : Byte) (s : State) : (record o i s).r7 = s.r7 := rfl
@[simp] theorem record_r1 (o i : Byte) (s : State) : (record o i s).r1 = s.r1 := rfl
@[simp] theorem record_frame (o i : Byte) (s : State) : (record o i s).frame = s.frame := rfl
@[simp] theorem record_phase (o i : Byte) (s : State) : (record o i s).phase = s.phase := rfl
@[simp] theorem record_n (o i : Byte) (s : State) : (record o i s).n = s.n := rfl
@[simp] theorem record_k (o i : Byte) (s : State) : (record o i s).k = s.k := rfl
@[simp] theorem record_it (o i : Byte) (s : State) : (record o i s).it = s.it := rfl
@[simp] theorem record_params (o i : Byte) (s : State) : (record o i s).params = s.params := rfl
@[simp] theorem record_rxData (o i : Byte) (s : State) : (record o i s).rxData = s.rxData := rfl
@[simp] theorem record_txData (o i : Byte) (s : State) : (record o i s).txData = s.txData := rfl
@[simp] theorem record_framerResult (o i : Byte) (s : State) : (record o i s).framerResult = s.framerResult := rfl
@[simp] theorem record_card (o i : Byte) (s : State) : (record o i s).card = s.card := rfl
@[simp] theorem record_stalled (o i : Byte) (s : State) : (record o i s).stalled = s.stalled := rfl
@[simp] theorem record_request (o i : Byte) (s : State) : (record o i s).request = s.request := rfl
@[simp] theorem record_script (o i : Byte) (s : State) : (record o i s).script = s.script := rfl
@[simp] theorem record_draws (o i : Byte) (s : State) : (record o i s).draws = s.draws := rfl
@[simp] theorem record_responses (o i : Byte) (s : State) : (record o i s).responses = s.responses := rfl

@[simp] theorem cardMoves_dev (s : State) : (cardMoves s).dev = s.dev := rfl
@[simp] theorem cardMoves_csd (s : State) : (cardMoves s).csd = s.csd := rfl
@[simp] theorem cardMoves_r7 (s : State) : (cardMoves s).r7 = s.r7 := rfl
@[simp] theorem cardMoves_r1 (s : State) : (cardMoves s).r1 = s.r1 := rfl
@[simp] theorem cardMoves_frame (s : State) : (cardMoves s).frame = s.frame := rfl
@[simp] theorem cardMoves_phase (s : State) : (cardMoves s).phase = s.phase := rfl
@[simp] theorem cardMoves_n (s : State) : (cardMoves s).n = s.n := rfl
@[simp] theorem cardMoves_k (s : State) : (cardMoves s).k = s.k := rfl
@[simp] theorem cardMoves_it (s : State) : (cardMoves s).it = s.it := rfl
@[simp] theorem cardMoves_params (s : State) : (cardMoves s).params = s.params := rfl
@[simp] theorem cardMoves_rxData (s : State) : (cardMoves s).rxData = s.rxData := rfl
@[simp] theorem cardMoves_txData (s : State) : (cardMoves s).txData = s.txData := rfl
@[simp] theorem cardMoves_framerResult (s : State) : (cardMoves s).framerResult = s.framerResult := rfl
@[simp] theorem cardMoves_stalled (s : State) : (cardMoves s).stalled = s.stalled := rfl
@[simp] theorem cardMoves_request (s : State) : (cardMoves s).request = s.request := rfl
@[simp] theorem cardMoves_script (s : State) : (cardMoves s).script = s.script := rfl
@[simp] theorem cardMoves_history (s : State) : (cardMoves s).history = s.history := rfl
@[simp] theorem cardMoves_responses (s : State) : (cardMoves s).responses = s.responses := rfl

@[simp] theorem respond_responses (r : Response) (s : State) : (respond r s).responses = s.responses ++ [r] := rfl
@[simp] theorem respond_phase (r : Response) (s : State) : (respond r s).phase = Phase.idle := rfl
@[simp] theorem respond_dev (r : Response) (s : State) : (respond r s).dev = s.dev := rfl
@[simp] theorem respond_csd (r : Response) (s : State) : (respond r s).csd = s.csd := rfl
@[simp] theorem respond_r7 (r : Response) (s : State) : (respond r s).r7 = s.r7 := rfl
@[simp] theorem respond_r1 (r : Response) (s : State) : (respond r s).r1 = s.r1 := rfl
@[simp] theorem respond_frame (r : Response) (s : State) : (respond r s).frame = s.frame := rfl
@[simp] theorem respond_n (r : Response) (s : State) : (respond r s).n = s.n := rfl
@[simp] theorem respond_k (r : Response) (s : State) : (respond r s).k = s.k := rfl
@[simp] theorem respond_it (r : Response) (s : State) : (respond r s).it = s.it := rfl
@[simp] theorem respond_params (r : Response) (s : State) : (respond r s).params = s.params := rfl
@[simp] theorem respond_rxData (r : Response) (s : State) : (respond r s).rxData = s.rxData := rfl
@[simp] theorem respond_txData (r : Response) (s : State) : (respond r s).txData = s.txData := rfl
@[simp] theorem respond_framerResult (r : Response) (s : State) : (respond r s).framerResult = s.framerResult := rfl
@[simp] theorem respond_card (r : Response) (s : State) : (respond r s).card = s.card := rfl
@[simp] theorem respond_stalled (r : Response) (s : State) : (respond r s).stalled = s.stalled := rfl
@[simp] theorem respond_request (r : Response) (s : State) : (respond r s).request = s.request := rfl
@[simp] theorem respond_script (r : Response) (s : State) : (respond r s).script = s.script := rfl
@[simp] theorem respond_draws (r : Response) (s : State) : (respond r s).draws = s.draws := rfl
@[simp] theorem respond_history (r : Response) (s : State) : (respond r s).history = s.history := rfl

@[simp] theorem fail_responses (e : ErrorKind) (s : State) : (fail e s).responses = s.responses ++ [.status e] := rfl
@[simp] theorem fail_phase (e : ErrorKind) (s : State) : (fail e s).phase = Phase.idle := rfl
@[simp] theorem fail_dev (e : ErrorKind) (s : State) : (fail e s).dev = s.dev := rfl
@[simp] theorem fail_csd (e : ErrorKind) (s : State) : (fail e s).csd = s.csd := rfl
@[simp] theorem fail_r7 (e : ErrorKind) (s : State) : (fail e s).r7 = s.r7 := rfl
@[simp] theorem fail_r1 (e : ErrorKind) (s : State) : (fail e s).r1 = s.r1 := rfl
@[simp] theorem fail_frame (e : ErrorKind) (s : State) : (fail e s).frame = s.frame := rfl
@[simp] theorem fail_n (e : ErrorKind) (s : State) : (fail e s).n = s.n := rfl
@[simp] theorem fail_k (e : ErrorKind) (s : State) : (fail e s).k = s.k := rfl
@[simp] theorem fail_it (e : ErrorKind) (s : State) : (fail e s).it = s.it := rfl
@[simp] theorem fail_params (e : ErrorKind) (s : State) : (fail e s).params = s.params := rfl
@[simp] theorem fail_rxData (e : ErrorKind) (s : State) : (fail e s).rxData = s.rxData := rfl
@[simp] theorem fail_txData (e : ErrorKind) (s : State) : (fail e s).txData = s.txData := rfl
@[simp] theorem fail_framerResult (e : ErrorKind) (s : State) : (fail e s).framerResult = s.framerResult := rfl
@[simp] theorem fail_card (e : ErrorKind) (s : State) : (fail e s).card = s.card := rfl
@[simp] theorem fail_stalled (e : ErrorKind) (s : State) : (fail e s).stalled = s.stalled := rfl
@[simp] theorem fail_request (e : ErrorKind) (s : State) : (fail e s).request = s.request := rfl
@[simp] theorem fail_script (e : ErrorKind) (s : State) : (fail e s).script = s.script := rfl
@[simp] theorem fail_draws (e : ErrorKind) (s : State) : (fail e s).draws = s.draws := rfl
@[simp] theorem fail_history (e : ErrorKind) (s : State) : (fail e s).history = s.history := rfl

@[simp] theorem doneInit_dev_initResult (r : InitResult) (s : State) : (doneInit r s).dev.initResult = r := rfl
@[simp] theorem doneInit_phase (r : InitResult) (s : State) : (doneInit r s).phase = Phase.idle := rfl
@[simp] theorem doneInit_dev_present (r : InitResult) (s : State) : (doneInit r s).dev.present = s.dev.present := rfl
@[simp] theorem doneInit_dev_initialized (r : InitResult) (s : State) : (doneInit r s).dev.initialized = s.dev.initialized := rfl
@[simp] theorem doneInit_dev_blockSize (r : InitResult) (s : State) : (doneInit r s).dev.blockSize = s.dev.blockSize := rfl
@[simp] theorem doneInit_dev_blockCount (r : InitResult) (s : State) : (doneInit r s).dev.blockCount = s.dev.blockCount := rfl
@[simp] theorem doneInit_dev_position (r : InitResult) (s : State) : (doneInit r s).dev.position = s.dev.position := rfl
@[simp] theorem doneInit_csd (r : InitResult) (s : State) : (doneInit r s).csd = s.csd := rfl
@[simp] theorem doneInit_r7 (r : InitResult) (s : State) : (doneInit r s).r7 = s.r7 := rfl
@[simp] theorem doneInit_r1 (r : InitResult) (s : State) : (doneInit r s).r1 = s.r1 := rfl
@[simp] theorem doneInit_frame (r : InitResult) (s : State) : (doneInit r s).frame = s.frame := rfl
@[simp] theorem doneInit_n (r : InitResult) (s : State) : (doneInit r s).n = s.n := rfl
@[simp] theorem doneInit_k (r : InitResult) (s : State) : (doneInit r s).k = s.k := rfl
@[simp] theorem doneInit_it (r : InitResult) (s : State) : (doneInit r s).it = s.it := rfl
@[simp] theorem doneInit_params (r : InitResult) (s : State) : (doneInit r s).params = s.params := rfl
@[simp] theorem doneInit_rxData (r : InitResult) (s : State) : (doneInit r s).rxData = [] := rfl
@[simp] theorem doneInit_txData (r : InitResult) (s : State) : (doneInit r s).txData = none := rfl
@[simp] theorem doneInit_framerResult (r : InitResult) (s : State) : (doneInit r s).framerResult = s.framerResult := rfl
@[simp] theorem doneInit_card (r : InitResult) (s : State) : (doneInit r s).card = s.card := rfl
@[simp] theorem doneInit_stalled (r : InitResult) (s : State) : (doneInit r s).stalled = s.stalled := rfl
@[simp] theorem doneInit_request (r : InitResult) (s : State) : (doneInit r s).request = s.request := rfl
@[simp] theorem doneInit_script (r : InitResult) (s : State) : (doneInit r s).script = s.script := rfl
@[simp] theorem doneInit_draws (r : InitResult) (s : State) : (doneInit r s).draws = s.draws := rfl
@[simp] theorem doneInit_history (r : InitResult) (s : State) : (doneInit r s).history = s.history := rfl
@[simp] theorem doneInit_responses (r : InitResult) (s : State) : (doneInit r s).responses = s.responses := rfl

@[simp] theorem advancePosition_dev_position (s : State) : (advancePosition s).dev.position = s.dev.position + 1#33 := rfl
@[simp] theorem advancePosition_dev_present (s : State) : (advancePosition s).dev.present = s.dev.present := rfl
@[simp] theorem advancePosition_dev_initialized (s : State) : (advancePosition s).dev.initialized = s.dev.initialized := rfl
@[simp] theorem advancePosition_dev_initResult (s : State) : (advancePosition s).dev.initResult = s.dev.initResult := rfl
@[simp] theorem advancePosition_dev_blockSize (s : State) : (advancePosition s).dev.blockSize = s.dev.blockSize := rfl
@[simp] theorem advancePosition_dev_blockCount (s : State) : (advancePosition s).dev.blockCount = s.dev.blockCount := rfl
@[simp] theorem advancePosition_csd (s : State) : (advancePosition s).csd = s.csd := rfl
@[simp] theorem advancePosition_r7 (s : State) : (advancePosition s).r7 = s.r7 := rfl
@[simp] theorem advancePosition_r1 (s : State) : (advancePosition s).r1 = s.r1 := rfl
@[simp] theorem advancePosition_frame (s : State) : (advancePosition s).frame = s.frame := rfl
@[simp] theorem advancePosition_phase (s : State) : (advancePosition s).phase = s.phase := rfl
@[simp] theorem advancePosition_n (s : State) : (advancePosition s).n = s.n := rfl
@[simp] theorem advancePosition_k (s : State) : (advancePosition s).k = s.k := rfl
@[simp] theorem advancePosition_it (s : State) : (advancePosition s).it = s.it := rfl
@[simp] theorem advancePosition_params (s : State) : (advancePosition s).params = s.params := rfl
@[simp] theorem advancePosition_rxData (s : State) : (advancePosition s).rxData = s.rxData := rfl
@[simp] theorem advancePosition_txData (s : State) : (advancePosition s).txData = s.txData := rfl
@[simp] theorem advancePosition_framerResult (s : State) : (advancePosition s).framerResult = s.framerResult := rfl
@[simp] theorem advancePosition_card (s : State) : (advancePosition s).card = s.card := rfl
@[simp] theorem advancePosition_stalled (s : State) : (advancePosition s).stalled = s.stalled := rfl
@[simp] theorem advancePosition_request (s : State) : (advancePosition s).request = s.request := rfl
@[simp] theorem advancePosition_script (s : State) : (advancePosition s).script = s.script := rfl
@[simp] theorem advancePosition_draws (s : State) : (advancePosition s).draws = s.draws := rfl
@[simp] theorem advancePosition_history (s : State) : (advancePosition s).history = s.history := rfl
@[simp] theorem advancePosition_responses (s : State) : (advancePosition s).responses = s.responses := rfl

@[simp] theorem setPosition_dev_position (x : Sector) (s : State) : (setPosition x s).dev.position = x := rfl
@[simp] theorem setPosition_dev_present (x : Sector) (s : State) : (setPosition x s).dev.present = s.dev.present := rfl
@[simp] theorem setPosition_dev_initialized (x : Sector) (s : State) : (setPosition x s).dev.initialized = s.dev.initialized := rfl
@[simp] theorem setPosition_dev_initResult (x : Sector) (s : State) : (setPosition x s).dev.initResult = s.dev.initResult := rfl
@[simp] theorem setPosition_dev_blockSize (x : Sector) (s : State) : (setPosition x s).dev.blockSize = s.dev.blockSize := rfl
@[simp] theorem setPosition_dev_blockCount (x : Sector) (s : State) : (setPosition x s).dev.blockCount = s.dev.blockCount := rfl
@[simp] theorem setPosition_csd (x : Sector) (s : State) : (setPosition x s).csd = s.csd := rfl
@[simp] theorem setPosition_r7 (x : Sector) (s : State) : (setPosition x s).r7 = s.r7 := rfl
@[simp] theorem setPosition_r1 (x : Sector) (s : State) : (setPosition x s).r1 = s.r1 := rfl
@[simp] theorem setPosition_frame (x : Sector) (s : State) : (setPosition x s).frame = s.frame := rfl
@[simp] theorem setPosition_phase (x : Sector) (s : State) : (setPosition x s).phase = s.phase := rfl
@[simp] theorem setPosition_n (x : Sector) (s : State) : (setPosition x s).n = s.n := rfl
@[simp] theorem setPosition_k (x : Sector) (s : State) : (setPosition x s).k = s.k := rfl
@[simp] theorem setPosition_it (x : Sector) (s : State) : (setPosition x s).it = s.it := rfl
@[simp] theorem setPosition_params (x : Sector) (s : State) : (setPosition x s).params = s.params := rfl
@[simp] theorem setPosition_rxData (x : Sector) (s : State) : (setPosition x s).rxData = s.rxData := rfl
@[simp] theorem setPosition_txData (x : Sector) (s : State) : (setPosition x s).txData = s.txData := rfl
@[simp] theorem setPosition_framerResult (x : Sector) (s : State) : (setPosition x s).framerResult = s.framerResult := rfl
@[simp] theorem setPosition_card (x : Sector) (s : State) : (setPosition x s).card = s.card := rfl
@[simp] theorem setPosition_stalled (x : Sector) (s : State) : (setPosition x s).stalled = s.stalled := rfl
@[simp] theorem setPosition_request (x : Sector) (s : State) : (setPosition x s).request = s.request := rfl
@[simp] theorem setPosition_script (x : Sector) (s : State) : (setPosition x s).script = s.script := rfl
@[simp] theorem setPosition_draws (x : Sector) (s : State) : (setPosition x s).draws = s.draws := rfl
@[simp] theorem setPosition_history (x : Sector) (s : State) : (setPosition x s).history = s.history := rfl
@[simp] theorem setPosition_responses (x : Sector) (s : State) : (setPosition x s).responses = s.responses := rfl

@[simp] theorem countDraw_draws (s : State) : (countDraw s).draws = s.draws + 1 := rfl
@[simp] theorem countDraw_dev (s : State) : (countDraw s).dev = s.dev := rfl
@[simp] theorem countDraw_csd (s : State) : (countDraw s).csd = s.csd := rfl
@[simp] theorem countDraw_r7 (s : State) : (countDraw s).r7 = s.r7 := rfl
@[simp] theorem countDraw_r1 (s : State) : (countDraw s).r1 = s.r1 := rfl
@[simp] theorem countDraw_frame (s : State) : (countDraw s).frame = s.frame := rfl
@[simp] theorem countDraw_phase (s : State) : (countDraw s).phase = s.phase := rfl
@[simp] theorem countDraw_n (s : State) : (countDraw s).n = s.n := rfl
@[simp] theorem countDraw_k (s : State) : (countDraw s).k = s.k := rfl
@[simp] theorem countDraw_it (s : State) : (countDraw s).it = s.it := rfl
@[simp] theorem countDraw_params (s : State) : (countDraw s).params = s.params := rfl
@[simp] theorem countDraw_rxData (s : State) : (countDraw s).rxData = s.rxData := rfl
@[simp] theorem countDraw_txData (s : State) : (countDraw s).txData = s.txData := rfl
@[simp] theorem countDraw_framerResult (s : State) : (countDraw s).framerResult = s.framerResult := rfl
@[simp] theorem countDraw_card (s : State) : (countDraw s).card = s.card := rfl
@[simp] theorem countDraw_stalled (s : State) : (countDraw s).stalled = s.stalled := rfl
@[simp] theorem countDraw_request (s : State) : (countDraw s).request = s.request := rfl
@[simp] theorem countDraw_script (s : State) : (countDraw s).script = s.script := rfl
@[simp] theorem countDraw_history (s : State) : (countDraw s).history = s.history := rfl
@[simp] theorem countDraw_responses (s : State) : (countDraw s).responses = s.responses := rfl

@[simp] theorem abandon_phase (s : State) : (abandon s).phase = Phase.idle := rfl
@[simp] theorem abandon_dev (s : State) : (abandon s).dev = s.dev := rfl
@[simp] theorem abandon_csd (s : State) : (abandon s).csd = s.csd := rfl
@[simp] theorem abandon_r7 (s : State) : (abandon s).r7 = s.r7 := rfl
@[simp] theorem abandon_r1 (s : State) : (abandon s).r1 = s.r1 := rfl
@[simp] theorem abandon_frame (s : State) : (abandon s).frame = s.frame := rfl
@[simp] theorem abandon_n (s : State) : (abandon s).n = s.n := rfl
@[simp] theorem abandon_k (s : State) : (abandon s).k = s.k := rfl
@[simp] theorem abandon_it (s : State) : (abandon s).it = s.it := rfl
@[simp] theorem abandon_params (s : State) : (abandon s).params = s.params := rfl
@[simp] theorem abandon_rxData (s : State) : (abandon s).rxData = [] := rfl
@[simp] theorem abandon_txData (s : State) : (abandon s).txData = none := rfl
@[simp] theorem abandon_framerResult (s : State) : (abandon s).framerResult = s.framerResult := rfl
@[simp] theorem abandon_card (s : State) : (abandon s).card = s.card := rfl
@[simp] theorem abandon_stalled (s : State) : (abandon s).stalled = s.stalled := rfl
@[simp] theorem abandon_request (s : State) : (abandon s).request = s.request := rfl
@[simp] theorem abandon_script (s : State) : (abandon s).script = s.script := rfl
@[simp] theorem abandon_draws (s : State) : (abandon s).draws = s.draws := rfl
@[simp] theorem abandon_history (s : State) : (abandon s).history = s.history := rfl
@[simp] theorem abandon_responses (s : State) : (abandon s).responses = s.responses := rfl

@[simp] theorem idle_top : Phase.idle.top = .idle := rfl
@[simp] theorem idle_sub : Phase.idle.sub = .none := rfl
@[simp] theorem idle_acmd : Phase.idle.acmd = false := rfl

/-! ### dropPayload -/

@[simp] theorem dropPayload_rxData (s : State) : (dropPayload s).rxData = [] := rfl
@[simp] theorem dropPayload_txData (s : State) : (dropPayload s).txData = none := rfl
@[simp] theorem dropPayload_dev (s : State) : (dropPayload s).dev = s.dev := rfl
@[simp] theorem dropPayload_csd (s : State) : (dropPayload s).csd = s.csd := rfl
@[simp] theorem dropPayload_r7 (s : State) : (dropPayload s).r7 = s.r7 := rfl
@[simp] theorem dropPayload_r1 (s : State) : (dropPayload s).r1 = s.r1 := rfl
@[simp] theorem dropPayload_frame (s : State) : (dropPayload s).frame = s.frame := rfl
@[simp] theorem dropPayload_phase (s : State) : (dropPayload s).phase = s.phase := rfl
@[simp] theorem dropPayload_n (s : State) : (dropPayload s).n = s.n := rfl
@[simp] theorem dropPayload_k (s : State) : (dropPayload s).k = s.k := rfl
@[simp] theorem dropPayload_it (s : State) : (dropPayload s).it = s.it := rfl
@[simp] theorem dropPayload_params (s : State) : (dropPayload s).params = s.params := rfl
@[simp] theorem dropPayload_framerResult (s : State) : (dropPayload s).framerResult = s.framerResult := rfl
@[simp] theorem dropPayload_card (s : State) : (dropPayload s).card = s.card := rfl
@[simp] theorem dropPayload_stalled (s : State) : (dropPayload s).stalled = s.stalled := rfl
@[simp] theorem dropPayload_request (s : State) : (dropPayload s).request = s.request := rfl
@[simp] theorem dropPayload_script (s : State) : (dropPayload s).script = s.script := rfl
@[simp] theorem dropPayload_draws (s : State) : (dropPayload s).draws = s.draws := rfl
@[simp] theorem dropPayload_history (s : State) : (dropPayload s).history = s.history := rfl
@[simp] theorem dropPayload_responses (s : State) : (dropPayload s).responses = s.responses := rfl

/-! ### supplyPayload -/

@[simp] theorem supplyPayload_txData_isSome (s : State) : (supplyPayload s).txData.isSome = true := by
  unfold supplyPayload; split <;> simp_all
theorem supplyPayload_of_some {s : State} {payload : Block} (h : s.txData = some payload) :
    supplyPayload s = s := by simp [supplyPayload, h]
@[simp] theorem supplyPayload_dev (s : State) : (supplyPayload s).dev = s.dev := by
  unfold supplyPayload; split <;> rfl
@[simp] theorem supplyPayload_csd (s : State) : (supplyPayload s).csd = s.csd := by
  unfold supplyPayload; split <;> rfl
@[simp] theorem supplyPayload_r7 (s : State) : (supplyPayload s).r7 = s.r7 := by
  unfold supplyPayload; split <;> rfl
@[simp] theorem supplyPayload_r1 (s : State) : (supplyPayload s).r1 = s.r1 := by
  unfold supplyPayload; split <;> rfl
@[simp] theorem supplyPayload_frame (s : State) : (supplyPayload s).frame = s.frame := by
  unfold supplyPayload; split <;> rfl
@[simp] theorem supplyPayload_phase (s : State) : (supplyPayload s).phase = s.phase := by
  unfold supplyPayload; split <;> rfl
@[simp] theorem supplyPayload_n (s : State) : (supplyPayload s).n = s.n := by
  unfold supplyPayload; split <;> rfl
@[simp] theorem supplyPayload_k (s : State) : (supplyPayload s).k = s.k := by
  unfold supplyPayload; split <;> rfl
@[simp] theorem supplyPayload_it (s : State) : (supplyPayload s).it = s.it := by
  unfold supplyPayload; split <;> rfl
@[simp] theorem supplyPayload_params (s : State) : (supplyPayload s).params = s.params := by
  unfold supplyPayload; split <;> rfl
@[simp] theorem supplyPayload_framerResult (s : State) : (supplyPayload s).framerResult = s.framerResult := by
  unfold supplyPayload; split <;> rfl
@[simp] theorem supplyPayload_card (s : State) : (supplyPayload s).card = s.card := by
  unfold supplyPayload; split <;> rfl
@[simp] theorem supplyPayload_stalled (s : State) : (supplyPayload s).stalled = s.stalled := by
  unfold supplyPayload; split <;> rfl
@[simp] theorem supplyPayload_request (s : State) : (supplyPayload s).request = s.request := by
  unfold supplyPayload; split <;> rfl
@[simp] theorem supplyPayload_script (s : State) : (supplyPayload s).script = s.script := by
  unfold supplyPayload; split <;> rfl
@[simp] theorem supplyPayload_history (s : State) : (supplyPayload s).history = s.history := by
  unfold supplyPayload; split <;> rfl
@[simp] theorem supplyPayload_responses (s : State) : (supplyPayload s).responses = s.responses := by
  unfold supplyPayload; split <;> rfl
@[simp] theorem supplyPayload_rxData (s : State) : (supplyPayload s).rxData = s.rxData := by
  unfold supplyPayload; split <;> rfl

/-! ### dropUnclaimed -/

theorem dropUnclaimed_busy {s : State} (t : State) (h : busy s = true) : dropUnclaimed s t = t := by
  simp [dropUnclaimed, h]
theorem dropUnclaimed_idle {s : State} (t : State) (h : busy s = false) :
    dropUnclaimed s t = { t with rxData := s.rxData, txData := s.txData } := by simp [dropUnclaimed, h]
@[simp] theorem dropUnclaimed_dev (s t : State) : (dropUnclaimed s t).dev = t.dev := by
  unfold dropUnclaimed; split <;> rfl
@[simp] theorem dropUnclaimed_csd (s t : State) : (dropUnclaimed s t).csd = t.csd := by
  unfold dropUnclaimed; split <;> rfl
@[simp] theorem dropUnclaimed_r7 (s t : State) : (dropUnclaimed s t).r7 = t.r7 := by
  unfold dropUnclaimed; split <;> rfl
@[simp] theorem dropUnclaimed_r1 (s t : State) : (dropUnclaimed s t).r1 = t.r1 := by
  unfold dropUnclaimed; split <;> rfl
@[simp] theorem dropUnclaimed_frame (s t : State) : (dropUnclaimed s t).frame = t.frame := by
  unfold dropUnclaimed; split <;> rfl
@[simp] theorem dropUnclaimed_phase (s t : State) : (dropUnclaimed s t).phase = t.phase := by
  unfold dropUnclaimed; split <;> rfl
@[simp] theorem dropUnclaimed_n (s t : State) : (dropUnclaimed s t).n = t.n := by
  unfold dropUnclaimed; split <;> rfl
@[simp] theorem dropUnclaimed_k (s t : State) : (dropUnclaimed s t).k = t.k := by
  unfold dropUnclaimed; split <;> rfl
@[simp] theorem dropUnclaimed_it (s t : State) : (dropUnclaimed s t).it = t.it := by
  unfold dropUnclaimed; split <;> rfl
@[simp] theorem dropUnclaimed_params (s t : State) : (dropUnclaimed s t).params = t.params := by
  unfold dropUnclaimed; split <;> rfl
@[simp] theorem dropUnclaimed_framerResult (s t : State) : (dropUnclaimed s t).framerResult = t.framerResult := by
  unfold dropUnclaimed; split <;> rfl
@[simp] theorem dropUnclaimed_card (s t : State) : (dropUnclaimed s t).card = t.card := by
  unfold dropUnclaimed; split <;> rfl
@[simp] theorem dropUnclaimed_stalled (s t : State) : (dropUnclaimed s t).stalled = t.stalled := by
  unfold dropUnclaimed; split <;> rfl
@[simp] theorem dropUnclaimed_request (s t : State) : (dropUnclaimed s t).request = t.request := by
  unfold dropUnclaimed; split <;> rfl
@[simp] theorem dropUnclaimed_script (s t : State) : (dropUnclaimed s t).script = t.script := by
  unfold dropUnclaimed; split <;> rfl
@[simp] theorem dropUnclaimed_draws (s t : State) : (dropUnclaimed s t).draws = t.draws := by
  unfold dropUnclaimed; split <;> rfl
@[simp] theorem dropUnclaimed_history (s t : State) : (dropUnclaimed s t).history = t.history := by
  unfold dropUnclaimed; split <;> rfl
@[simp] theorem dropUnclaimed_responses (s t : State) : (dropUnclaimed s t).responses = t.responses := by
  unfold dropUnclaimed; split <;> rfl

end Sys2Proof.Machine
end

