-- ==== Sys2Proof/Laws/Sequencer.lean ====
section
/-! SUPPORT. What one exchange, one caller's decision and one engine step can change, and the bound on what
is left to do. -/

namespace Sys2Proof.Machine

theorem busy_iff (s : State) : busy s = true ↔ s.phase.top ≠ .idle := by simp [busy]

theorem not_busy_iff (s : State) : busy s = false ↔ s.phase.top = .idle := by simp [busy]

/-! ## What an exchange leaves alone -/

/-- The parts of the state that no reaction to a byte touches: the Device State, the latches of other
procedures, the parameters, the other agents and the record. -/
structure ReactFrame (s t : State) : Prop where
  dev : t.dev = s.dev
  csd : t.csd = s.csd
  frame : t.frame = s.frame
  top : t.phase.top = s.phase.top
  acmd : t.phase.acmd = s.phase.acmd
  it : t.it = s.it
  params : t.params = s.params
  txData : t.txData = s.txData
  card : t.card = s.card
  stalled : t.stalled = s.stalled
  request : t.request = s.request
  script : t.script = s.script
  draws : t.draws = s.draws
  history : t.history = s.history
  responses : t.responses = s.responses

theorem react_frame (length : Nat) (i : Byte) (s : State) : ReactFrame s (react length i s) := by
  unfold react
  split
  case h_1 => constructor <;> rfl
  all_goals
    simp only [reactReady, reactFrame, reactR1, reactReply, reactToken, reactPayload, reactRxCrc,
      reactTxToken, reactTxPayload, reactTxCrc, reactResponse, reactBusy, pollStep, runStep]
    (repeat' split) <;> constructor <;> rfl

/-- What an exchange leaves alone: as `ReactFrame`, with one pair added to the history. -/
theorem exchange_history (length : Nat) (i : Byte) (s : State) :
    (exchange length i s).history = s.history ++ [(outByte s, i)] :=
  (react_frame _ _ _).history

@[simp] theorem exchange_dev (length : Nat) (i : Byte) (s : State) :
    (exchange length i s).dev = s.dev := (react_frame _ _ _).dev
@[simp] theorem exchange_csd (length : Nat) (i : Byte) (s : State) :
    (exchange length i s).csd = s.csd := (react_frame _ _ _).csd
@[simp] theorem exchange_frame (length : Nat) (i : Byte) (s : State) :
    (exchange length i s).frame = s.frame := (react_frame _ _ _).frame
@[simp] theorem exchange_top (length : Nat) (i : Byte) (s : State) :
    (exchange length i s).phase.top = s.phase.top := (react_frame _ _ _).top
@[simp] theorem exchange_acmd (length : Nat) (i : Byte) (s : State) :
    (exchange length i s).phase.acmd = s.phase.acmd := (react_frame _ _ _).acmd
@[simp] theorem exchange_it (length : Nat) (i : Byte) (s : State) :
    (exchange length i s).it = s.it := (react_frame _ _ _).it
@[simp] theorem exchange_params (length : Nat) (i : Byte) (s : State) :
    (exchange length i s).params = s.params := (react_frame _ _ _).params
@[simp] theorem exchange_txData (length : Nat) (i : Byte) (s : State) :
    (exchange length i s).txData = s.txData := (react_frame _ _ _).txData
@[simp] theorem exchange_card (length : Nat) (i : Byte) (s : State) :
    (exchange length i s).card = s.card := (react_frame _ _ _).card
@[simp] theorem exchange_stalled (length : Nat) (i : Byte) (s : State) :
    (exchange length i s).stalled = s.stalled := (react_frame _ _ _).stalled
@[simp] theorem exchange_request (length : Nat) (i : Byte) (s : State) :
    (exchange length i s).request = s.request := (react_frame _ _ _).request
@[simp] theorem exchange_script (length : Nat) (i : Byte) (s : State) :
    (exchange length i s).script = s.script := (react_frame _ _ _).script
@[simp] theorem exchange_draws (length : Nat) (i : Byte) (s : State) :
    (exchange length i s).draws = s.draws := (react_frame _ _ _).draws
@[simp] theorem exchange_responses (length : Nat) (i : Byte) (s : State) :
    (exchange length i s).responses = s.responses := (react_frame _ _ _).responses

/-! ## What an exchange does, case by case -/

theorem pollStep_cases (hit : Bool) (f g : State → State) (s : State) :
    (hit = true ∧ pollStep hit f g s = f { s with n := s.n + 1 }) ∨
      (hit = false ∧ s.params.retryBudget ≤ s.n + 1 ∧ pollStep hit f g s = g { s with n := s.n + 1 }) ∨
      (hit = false ∧ s.n + 1 < s.params.retryBudget ∧ pollStep hit f g s = { s with n := s.n + 1 }) := by
  unfold pollStep pollExhausted
  cases hit
  · by_cases h : s.params.retryBudget ≤ s.n + 1
    · exact .inr (.inl ⟨rfl, h, by simp [h]⟩)
    · exact .inr (.inr ⟨rfl, by omega, by simp [h]⟩)
  · exact .inl ⟨rfl, rfl⟩

theorem runStep_cases (length : Nat) (f : State → State) (s : State) :
    (length ≤ s.k + 1 ∧ runStep length f s = f s) ∨
      (s.k + 1 < length ∧ runStep length f s = { s with k := s.k + 1 }) := by
  unfold runStep runComplete
  by_cases h : length ≤ s.k + 1
  · exact .inl ⟨h, by simp [h]⟩
  · exact .inr ⟨by omega, by simp [h]⟩

/-- Everything one exchange can do inside a procedure. A constructor that ends the procedure has `sub` NONE. -/
inductive ReactsTo (length : Nat) (i : Byte) (s : State) : State → Prop where
  | readyWaits (sub : s.phase.sub = .cmdReady) (miss : isReady i = false)
      (budget : s.n + 1 < s.params.retryBudget) : ReactsTo length i s { s with n := s.n + 1 }
  | readyEnds (sub : s.phase.sub = .cmdReady)
      (cause : isReady i = true ∨ s.params.retryBudget ≤ s.n + 1) :
      ReactsTo length i s
        { s with n := s.n + 1, k := 0, phase := { s.phase with sub := .cmdFrame } }
  | frameGoes (sub : s.phase.sub = .cmdFrame) (more : s.k + 1 < 6) :
      ReactsTo length i s { s with k := s.k + 1 }
  | frameEnds (sub : s.phase.sub = .cmdFrame) (last : 6 ≤ s.k + 1) :
      ReactsTo length i s { s with n := 0, phase := { s.phase with sub := .cmdR1 } }
  | r1Waits (sub : s.phase.sub = .cmdR1) (miss : isR1 i = false)
      (budget : s.n + 1 < s.params.retryBudget) : ReactsTo length i s { s with n := s.n + 1 }
  | r1Arrives (sub : s.phase.sub = .cmdR1) (hit : isR1 i = true) :
      ReactsTo length i s
        { s with
          n := s.n + 1, r1 := .answer (i.extractLsb' 0 7), phase := { s.phase with sub := .none } }
  | r1TimesOut (sub : s.phase.sub = .cmdR1) (miss : isR1 i = false)
      (exhausted : s.params.retryBudget ≤ s.n + 1) :
      ReactsTo length i s
        { s with n := s.n + 1, r1 := .timeout, phase := { s.phase with sub := .none } }
  | replyGoes (sub : s.phase.sub = .r7Bytes) (more : s.k + 1 < 4) :
      ReactsTo length i s { s with r7 := s.r7.setIfInBounds s.k i, k := s.k + 1 }
  | replyEnds (sub : s.phase.sub = .r7Bytes) (last : 4 ≤ s.k + 1) :
      ReactsTo length i s
        { s with r7 := s.r7.setIfInBounds s.k i, phase := { s.phase with sub := .none } }
  | tokenWaits (sub : s.phase.sub = .rxToken) (miss : isStartToken i = false)
      (budget : s.n + 1 < s.params.retryBudget) : ReactsTo length i s { s with n := s.n + 1 }
  | tokenArrives (sub : s.phase.sub = .rxToken) (hit : isStartToken i = true) :
      ReactsTo length i s
        { s with n := s.n + 1, k := 0, rxData := [], phase := { s.phase with sub := .rxPayload } }
  | tokenMissing (sub : s.phase.sub = .rxToken) (miss : isStartToken i = false)
      (exhausted : s.params.retryBudget ≤ s.n + 1) :
      ReactsTo length i s
        { s with n := s.n + 1, framerResult := .io, phase := { s.phase with sub := .none } }
  | payloadGoes (sub : s.phase.sub = .rxPayload) (more : s.k + 1 < length) :
      ReactsTo length i s { s with rxData := s.rxData ++ [i], k := s.k + 1 }
  | payloadEnds (sub : s.phase.sub = .rxPayload) (last : length ≤ s.k + 1) :
      ReactsTo length i s
        { s with rxData := s.rxData ++ [i], k := 0, phase := { s.phase with sub := .rxCrc } }
  | rxCrcGoes (sub : s.phase.sub = .rxCrc) (more : s.k + 1 < 2) :
      ReactsTo length i s { s with k := s.k + 1 }
  | rxCrcEnds (sub : s.phase.sub = .rxCrc) (last : 2 ≤ s.k + 1) :
      ReactsTo length i s { s with framerResult := .ok, phase := { s.phase with sub := .none } }
  | txTokenGoes (sub : s.phase.sub = .txToken) :
      ReactsTo length i s { s with k := 0, phase := { s.phase with sub := .txPayload } }
  | txPayloadGoes (sub : s.phase.sub = .txPayload) (more : s.k + 1 < blockBytes) :
      ReactsTo length i s { s with k := s.k + 1 }
  | txPayloadEnds (sub : s.phase.sub = .txPayload) (last : blockBytes ≤ s.k + 1) :
      ReactsTo length i s { s with k := 0, phase := { s.phase with sub := .txCrc } }
  | txCrcGoes (sub : s.phase.sub = .txCrc) (more : s.k + 1 < 2) :
      ReactsTo length i s { s with k := s.k + 1 }
  | txCrcEnds (sub : s.phase.sub = .txCrc) (last : 2 ≤ s.k + 1) :
      ReactsTo length i s { s with phase := { s.phase with sub := .txResp } }
  | accepted (sub : s.phase.sub = .txResp) (hit : isAccepting i = true) :
      ReactsTo length i s { s with n := 0, phase := { s.phase with sub := .txBusy } }
  | rejected (sub : s.phase.sub = .txResp) (miss : isAccepting i = false) :
      ReactsTo length i s { s with framerResult := .io, phase := { s.phase with sub := .none } }
  | busyWaits (sub : s.phase.sub = .txBusy) (miss : isReady i = false)
      (budget : s.n + 1 < s.params.retryBudget) : ReactsTo length i s { s with n := s.n + 1 }
  | busyEnds (sub : s.phase.sub = .txBusy) (hit : isReady i = true) :
      ReactsTo length i s
        { s with n := s.n + 1, framerResult := .ok, phase := { s.phase with sub := .none } }
  | busyTooLong (sub : s.phase.sub = .txBusy) (miss : isReady i = false)
      (exhausted : s.params.retryBudget ≤ s.n + 1) :
      ReactsTo length i s
        { s with n := s.n + 1, framerResult := .io, phase := { s.phase with sub := .none } }

/-- An exchange inside a procedure does one of the things listed. -/
theorem react_reactsTo (length : Nat) (i : Byte) (s : State) (h : s.phase.sub ≠ .none) :
    ReactsTo length i s (react length i s) := by
  unfold react
  split <;> rename_i hs
  case h_1 => exact absurd hs h
  case h_2 =>
    rcases pollStep_cases (isReady i) (startRun .cmdFrame) (startRun .cmdFrame) s with
      ⟨c, e⟩ | ⟨-, c, e⟩ | ⟨c, b, e⟩ <;> rw [reactReady, e]
    · exact .readyEnds hs (.inl c)
    · exact .readyEnds hs (.inr c)
    · exact .readyWaits hs c b
  case h_3 =>
    rcases runStep_cases 6 (startPoll .cmdR1) s with ⟨c, e⟩ | ⟨c, e⟩ <;> rw [reactFrame, e]
    · exact .frameEnds hs c
    · exact .frameGoes hs c
  case h_4 =>
    rcases pollStep_cases (isR1 i) (fun t => endProcedure { t with r1 := .answer (i.extractLsb' 0 7) })
      (fun t => endProcedure { t with r1 := .timeout }) s with
      ⟨c, e⟩ | ⟨c, b, e⟩ | ⟨c, b, e⟩ <;> rw [reactR1, e]
    · exact .r1Arrives hs c
    · exact .r1TimesOut hs c b
    · exact .r1Waits hs c b
  case h_5 =>
    rcases runStep_cases 4 endProcedure { s with r7 := s.r7.setIfInBounds s.k i } with
      ⟨c, e⟩ | ⟨c, e⟩ <;> rw [reactReply, e]
    · exact .replyEnds hs c
    · exact .replyGoes hs c
  case h_6 =>
    rcases pollStep_cases (isStartToken i) startPayload (endFramer .io) s with
      ⟨c, e⟩ | ⟨c, b, e⟩ | ⟨c, b, e⟩ <;> rw [reactToken, e]
    · exact .tokenArrives hs c
    · exact .tokenMissing hs c b
    · exact .tokenWaits hs c b
  case h_7 =>
    rcases runStep_cases length (startRun .rxCrc) { s with rxData := s.rxData ++ [i] } with
      ⟨c, e⟩ | ⟨c, e⟩ <;> rw [reactPayload, e]
    · exact .payloadEnds hs c
    · exact .payloadGoes hs c
  case h_8 =>
    rcases runStep_cases 2 (endFramer .ok) s with ⟨c, e⟩ | ⟨c, e⟩ <;> rw [reactRxCrc, e]
    · exact .rxCrcEnds hs c
    · exact .rxCrcGoes hs c
  case h_9 => exact .txTokenGoes hs
  case h_10 =>
    rcases runStep_cases blockBytes (startRun .txCrc) s with ⟨c, e⟩ | ⟨c, e⟩ <;> rw [reactTxPayload, e]
    · exact .txPayloadEnds hs c
    · exact .txPayloadGoes hs c
  case h_11 =>
    rcases runStep_cases 2 (goto .txResp) s with ⟨c, e⟩ | ⟨c, e⟩ <;> rw [reactTxCrc, e]
    · exact .txCrcEnds hs c
    · exact .txCrcGoes hs c
  case h_12 =>
    unfold reactResponse
    split <;> rename_i c
    · exact .accepted hs c
    · exact .rejected hs (by simpa using c)
  case h_13 =>
    rcases pollStep_cases (isReady i) (endFramer .ok) (endFramer .io) s with
      ⟨c, e⟩ | ⟨c, b, e⟩ | ⟨c, b, e⟩ <;> rw [reactBusy, e]
    · exact .busyEnds hs c
    · exact .busyTooLong hs c b
    · exact .busyWaits hs c b

/-! ## What a caller leaves alone -/

/-- The outbound payload stays, or the operation has ended and no payload is held (R64). -/
def KeptOrDropped (s t : State) : Prop :=
  t.txData = s.txData ∨ (t.phase = Phase.idle ∧ t.rxData = [] ∧ t.txData = none)

/-- The parts of the state that no caller's decision touches; the payload goes when the operation ends. -/
structure CallerFrame (s t : State) : Prop where
  r7 : t.r7 = s.r7
  r1 : t.r1 = s.r1
  frame : t.frame = s.frame
  params : t.params = s.params
  txData : KeptOrDropped s t
  framerResult : t.framerResult = s.framerResult
  card : t.card = s.card
  stalled : t.stalled = s.stalled
  request : t.request = s.request
  script : t.script = s.script
  draws : t.draws = s.draws
  history : t.history = s.history

theorem decodeRegisterLatch_frame (s : State) : CallerFrame s (decodeRegisterLatch s) := by
  unfold decodeRegisterLatch
  split <;> constructor <;> first | rfl | exact .inr ⟨rfl, rfl, rfl⟩

theorem latchCsd_frame (s : State) : CallerFrame s (latchCsd s) := by
  unfold latchCsd
  split <;> constructor <;> first | rfl | exact .inl rfl

/-- A caller that decides after the CSD has been latched. -/
theorem CallerFrame.after_latchCsd {s u : State} (g : CallerFrame (latchCsd s) u) : CallerFrame s u :=
  have h := latchCsd_frame s
  have ht : (latchCsd s).txData = s.txData := by unfold latchCsd; split <;> rfl
  ⟨g.r7.trans h.r7, g.r1.trans h.r1, g.frame.trans h.frame, g.params.trans h.params,
    g.txData.imp_left (·.trans ht), g.framerResult.trans h.framerResult, g.card.trans h.card,
    g.stalled.trans h.stalled, g.request.trans h.request, g.script.trans h.script,
    g.draws.trans h.draws, g.history.trans h.history⟩

theorem afterRegisterBlock_frame (s : State) : CallerFrame s (afterRegisterBlock s) := by
  unfold afterRegisterBlock
  split
  · exact (decodeRegisterLatch_frame _).after_latchCsd
  · constructor <;> first | rfl | exact .inr ⟨rfl, rfl, rfl⟩

theorem returnFrom_frame (sub : SubPhase) (s : State) : CallerFrame s (returnFrom sub s) := by
  unfold returnFrom afterCommand afterReplyBytes afterReceive afterTransmit
  (repeat' split) <;>
    first
      | exact afterRegisterBlock_frame s
      | (unfold abandon; constructor <;> first | rfl | exact .inr ⟨rfl, rfl, rfl⟩)
      | (simp only [afterReset, afterInterfaceCondition, afterReply, afterPrefix, afterIdleWait,
          afterReadRegister, afterReadCommand, afterReadBlock, afterWriteCommand,
          afterWriteBlock]; (repeat' split) <;>
          (constructor <;> first | rfl | exact .inl rfl | exact .inr ⟨rfl, rfl, rfl⟩))

/-- A caller that ends the operation leaves nothing of a payload (R50, R64). -/
theorem returnFrom_drops (sub : SubPhase) (s : State) (h : busy (returnFrom sub s) = false) :
    (returnFrom sub s).rxData = [] ∧ (returnFrom sub s).txData = none := by
  revert h
  unfold returnFrom afterCommand afterReplyBytes afterReceive afterTransmit
  (repeat' split) <;> rename_i ht <;>
    first
      | exact fun _ => ⟨rfl, rfl⟩
      | (simp only [afterReset, afterInterfaceCondition, afterReply, afterPrefix, afterIdleWait,
          afterReadRegister, afterReadCommand, afterReadBlock, afterWriteCommand, afterWriteBlock,
          afterRegisterBlock, decodeRegisterLatch]
         (repeat' split) <;> first | exact fun _ => ⟨rfl, rfl⟩ | simp_all [busy])

/-! ## One engine step -/

theorem latchFrame_cases (s : State) : ∃ f, latchFrame s = { s with frame := f } := by
  unfold latchFrame
  (repeat' split) <;> exact ⟨_, rfl⟩

@[simp] theorem latchFrame_phase (s : State) : (latchFrame s).phase = s.phase := by
  obtain ⟨f, h⟩ := latchFrame_cases s; rw [h]

@[simp] theorem latchFrame_dev (s : State) : (latchFrame s).dev = s.dev := by
  obtain ⟨f, h⟩ := latchFrame_cases s; rw [h]
@[simp] theorem latchFrame_csd (s : State) : (latchFrame s).csd = s.csd := by
  obtain ⟨f, h⟩ := latchFrame_cases s; rw [h]
@[simp] theorem latchFrame_r7 (s : State) : (latchFrame s).r7 = s.r7 := by
  obtain ⟨f, h⟩ := latchFrame_cases s; rw [h]
@[simp] theorem latchFrame_r1 (s : State) : (latchFrame s).r1 = s.r1 := by
  obtain ⟨f, h⟩ := latchFrame_cases s; rw [h]
@[simp] theorem latchFrame_n (s : State) : (latchFrame s).n = s.n := by
  obtain ⟨f, h⟩ := latchFrame_cases s; rw [h]
@[simp] theorem latchFrame_k (s : State) : (latchFrame s).k = s.k := by
  obtain ⟨f, h⟩ := latchFrame_cases s; rw [h]
@[simp] theorem latchFrame_it (s : State) : (latchFrame s).it = s.it := by
  obtain ⟨f, h⟩ := latchFrame_cases s; rw [h]
@[simp] theorem latchFrame_params (s : State) : (latchFrame s).params = s.params := by
  obtain ⟨f, h⟩ := latchFrame_cases s; rw [h]
@[simp] theorem latchFrame_rxData (s : State) : (latchFrame s).rxData = s.rxData := by
  obtain ⟨f, h⟩ := latchFrame_cases s; rw [h]
@[simp] theorem latchFrame_txData (s : State) : (latchFrame s).txData = s.txData := by
  obtain ⟨f, h⟩ := latchFrame_cases s; rw [h]
@[simp] theorem latchFrame_framerResult (s : State) : (latchFrame s).framerResult = s.framerResult := by
  obtain ⟨f, h⟩ := latchFrame_cases s; rw [h]
@[simp] theorem latchFrame_card (s : State) : (latchFrame s).card = s.card := by
  obtain ⟨f, h⟩ := latchFrame_cases s; rw [h]
@[simp] theorem latchFrame_stalled (s : State) : (latchFrame s).stalled = s.stalled := by
  obtain ⟨f, h⟩ := latchFrame_cases s; rw [h]
@[simp] theorem latchFrame_request (s : State) : (latchFrame s).request = s.request := by
  obtain ⟨f, h⟩ := latchFrame_cases s; rw [h]
@[simp] theorem latchFrame_script (s : State) : (latchFrame s).script = s.script := by
  obtain ⟨f, h⟩ := latchFrame_cases s; rw [h]
@[simp] theorem latchFrame_draws (s : State) : (latchFrame s).draws = s.draws := by
  obtain ⟨f, h⟩ := latchFrame_cases s; rw [h]
@[simp] theorem latchFrame_history (s : State) : (latchFrame s).history = s.history := by
  obtain ⟨f, h⟩ := latchFrame_cases s; rw [h]
@[simp] theorem latchFrame_responses (s : State) : (latchFrame s).responses = s.responses := by
  obtain ⟨f, h⟩ := latchFrame_cases s; rw [h]

/-- The byte of an exchange does not depend on whether the frame is latched with it: the ready poll sends
0xFF. -/
@[simp] theorem outByte_latchFrame (s : State) : outByte (latchFrame s) = outByte s := by
  unfold latchFrame
  split
  · rename_i h
    split
    · unfold outByte; simp [h.1]
    · rfl
  · rfl

theorem engineStep_idle {s : State} (i : Byte) (h : busy s = false) : engineStep i s = s := by
  simp [engineStep, h]

theorem engineStep_busy {s : State} (i : Byte) (h : busy s = true) :
    engineStep i s =
      if (exchange (rxLength s.phase.top) i (latchFrame s)).phase.sub = .none then
        returnFrom s.phase.sub (exchange (rxLength s.phase.top) i (latchFrame s))
      else exchange (rxLength s.phase.top) i (latchFrame s) := by
  simp [engineStep, h]

/-- The parts of the state that no engine step touches; the history gains the pair of the exchange. -/
structure StepFrame (i : Byte) (s t : State) : Prop where
  params : t.params = s.params
  txData : KeptOrDropped s t
  card : t.card = s.card
  stalled : t.stalled = s.stalled
  request : t.request = s.request
  script : t.script = s.script
  draws : t.draws = s.draws
  history : t.history = s.history ++ [(outByte s, i)]

theorem engineStep_frame {s : State} (i : Byte) (h : busy s = true) :
    StepFrame i s (engineStep i s) := by
  rw [engineStep_busy i h]
  have hh : (exchange (rxLength s.phase.top) i (latchFrame s)).history
      = s.history ++ [(outByte s, i)] := by simp [exchange_history]
  split
  · have c := returnFrom_frame s.phase.sub (exchange (rxLength s.phase.top) i (latchFrame s))
    exact ⟨by simp [c.params], c.txData.imp_left (by simp [·]), by simp [c.card], by simp [c.stalled],
      by simp [c.request], by simp [c.script], by simp [c.draws], by rw [c.history, hh]⟩
  · exact ⟨by simp, .inl (by simp), by simp, by simp, by simp, by simp, by simp, hh⟩

/-- A step that ends the operation leaves nothing of a payload (R50, R64). -/
theorem engineStep_drops {s : State} (i : Byte) (h : busy s = true) (he : busy (engineStep i s) = false) :
    (engineStep i s).rxData = [] ∧ (engineStep i s).txData = none := by
  rw [engineStep_busy i h] at he ⊢
  split at he
  · rename_i hs
    rw [if_pos hs]
    exact returnFrom_drops _ _ he
  · simp [busy] at h he
    exact absurd he h

theorem tick_idle {s : State} (h : busy s = false) : tick s = s := by simp [tick, h]

theorem tick_busy {s : State} (h : busy s = true) :
    tick s = engineStep (cardByte s) (cardMoves s) := by simp [tick, h]

@[simp] theorem busy_cardMoves (s : State) : busy (cardMoves s) = busy s := rfl

@[simp] theorem outByte_cardMoves (s : State) : outByte (cardMoves s) = outByte s := rfl

/-- A step against the card adds one pair to the history. -/
theorem tick_history {s : State} (h : busy s = true) :
    (tick s).history = s.history ++ [(outByte s, cardByte s)] := by
  rw [tick_busy h]
  exact (engineStep_frame (cardByte s) (s := cardMoves s) h).history

theorem tick_drops {s : State} (h : busy s = true) (he : busy (tick s) = false) :
    (tick s).rxData = [] ∧ (tick s).txData = none := by
  rw [tick_busy h] at he ⊢
  exact engineStep_drops (s := cardMoves s) _ h he

theorem tick_params (s : State) : (tick s).params = s.params := by
  cases h : busy s
  · rw [tick_idle h]
  · rw [tick_busy h]; exact (engineStep_frame (s := cardMoves s) _ h).params

theorem tick_stalled (s : State) : (tick s).stalled = s.stalled := by
  cases h : busy s
  · rw [tick_idle h]
  · rw [tick_busy h]; exact (engineStep_frame (s := cardMoves s) _ h).stalled

theorem tick_request (s : State) : (tick s).request = s.request := by
  cases h : busy s
  · rw [tick_idle h]
  · rw [tick_busy h]; exact (engineStep_frame (s := cardMoves s) _ h).request

theorem tick_script (s : State) : (tick s).script = s.script := by
  cases h : busy s
  · rw [tick_idle h]
  · rw [tick_busy h]; exact (engineStep_frame (s := cardMoves s) _ h).script

/-! ## The bound goes down with every exchange (R104, R238) -/

/-- Inside a procedure, every exchange takes at least one off what the procedure may still make. -/
theorem procedureLeft_react (length : Nat) (i : Byte) (s : State) (h : s.phase.sub ≠ .none) :
    procedureLeft length (react length i s) + 1 ≤ procedureLeft length s := by
  unfold react
  split <;> rename_i hs <;> first | exact absurd hs h | skip
  all_goals
    simp only [reactReady, reactFrame, reactR1, reactReply, reactToken, reactPayload, reactRxCrc,
      reactTxToken, reactTxPayload, reactTxCrc, reactResponse, reactBusy, pollStep, runStep,
      pollExhausted, runComplete, decide_eq_true_eq, blockBytes]
    (repeat' split) <;>
      simp [procedureLeft, hs, pollLeft, runLeft, budget, goto, startRun, startPoll, startPayload, endProcedure,
        endFramer, blockBytes] <;> omega

theorem procedureLeft_exchange (length : Nat) (i : Byte) (s : State) (h : s.phase.sub ≠ .none) :
    procedureLeft length (exchange length i s) + 1 ≤ procedureLeft length s :=
  procedureLeft_react length i (record (outByte s) i s) h

theorem procedureLeft_pos (length : Nat) (s : State) (h : s.phase.sub ≠ .none) :
    1 ≤ procedureLeft length s := by
  unfold procedureLeft
  split <;> first | exact absurd (by assumption) h | (simp only [pollLeft, runLeft]; omega) | omega

/-- A procedure stays the procedure it is until it ends. -/
theorem react_sub (length : Nat) (i : Byte) (s : State)
    (h : (react length i s).phase.sub ≠ .none) :
    (react length i s).phase.sub.inCommand = s.phase.sub.inCommand ∧
      ((react length i s).phase.sub = .r7Bytes ↔ s.phase.sub = .r7Bytes) := by
  revert h
  unfold react
  split <;> rename_i hs
  case h_1 => simp
  all_goals
    simp only [reactReady, reactFrame, reactR1, reactReply, reactToken, reactPayload, reactRxCrc,
      reactTxToken, reactTxPayload, reactTxCrc, reactResponse, reactBusy, pollStep, runStep]
    (repeat' split) <;> simp [SubPhase.inCommand, hs]

theorem exchangesLeft_of_idle {s : State} (h : s.phase.top = .idle) : exchangesLeft s = 0 := by
  simp [exchangesLeft, busy, h]

/-- What a new command costs with all that may follow it. -/
theorem exchangesLeft_startCommand (top : TopPhase) (acmd : Bool) (s : State) (h : top ≠ .idle) :
    exchangesLeft (startCommand top acmd s) =
      commandBound s.params + operationLeft (startCommand top acmd s) := by
  have : procedureLeft (rxLength top) (startCommand top acmd s) = commandBound s.params := by
    simp [procedureLeft, pollLeft, commandBound, budget]
  simp only [exchangesLeft, busy, startCommand_phase]
  rw [this]
  have : 1 ≤ commandBound s.params := by simp only [commandBound]; omega
  simp [h]; omega

theorem idleWaitBound_succ (m : Nat) (p : Params) :
    idleWaitBound (m + 1) p = 2 * commandBound p + idleWaitBound m p := by
  simp only [idleWaitBound, Nat.succ_mul]; omega

/-- What follows a command costs no more than what `operationLeft` set aside for it. -/
theorem afterCommand_left (s u : State) (hs : s.phase.sub.inCommand = true)
    (htop : s.phase.top = u.phase.top) (ha : s.phase.acmd = u.phase.acmd)
    (hp : s.params = u.params) (hit : s.it = u.it) :
    exchangesLeft (afterCommand u) ≤ operationLeft s := by
  unfold afterCommand
  split <;> rename_i ht <;> rw [← htop] at ht <;> simp only [operationLeft, ht, hs, if_true]
  · unfold afterReset
    split
    · rw [exchangesLeft_startCommand _ _ _ (by decide)]
      simp [operationLeft, SubPhase.inCommand, hp]; omega
    · rw [exchangesLeft_of_idle rfl]; omega
  · unfold afterInterfaceCondition
    split
    · simp [exchangesLeft, busy, ← htop, ht, procedureLeft, runLeft, operationLeft,
        SubPhase.inCommand, hp]
    · rw [exchangesLeft_of_idle rfl]; omega
  · by_cases hacmd : u.phase.acmd = true
    · simp only [hacmd, ha, if_true]
      unfold afterIdleWait
      split_ifs with hto hid hb
      · rw [exchangesLeft_of_idle rfl]; omega
      · rw [exchangesLeft_startCommand _ _ _ (by decide)]
        simp [operationLeft, SubPhase.inCommand, hp, idleWaitBound, readRegBound]
      · rw [exchangesLeft_of_idle rfl]; omega
      · rw [exchangesLeft_startCommand _ _ _ (by decide)]
        simp only [idleWaitExhausted, decide_eq_true_eq] at hb
        obtain ⟨m, hm⟩ : ∃ m, s.params.initBudget = s.it + 1 + (m + 1) :=
          ⟨s.params.initBudget - s.it - 2, by rw [hp, hit]; omega⟩
        have h1 : iterationsLeft s - 1 = m + 1 := by simp [iterationsLeft]; omega
        have h2 : iterationsLeft (startCommand .initIdleWait false { u with it := u.it + 1 }) - 1 = m := by
          simp [iterationsLeft, ← hp, ← hit]; omega
        simp only [operationLeft, startCommand_phase, h1, h2, idleWaitBound_succ]
        simp [SubPhase.inCommand, hp]; omega
    · simp only [hacmd, ha, if_false, Bool.false_eq_true]
      unfold afterPrefix
      split
      · rw [exchangesLeft_of_idle rfl]; omega
      · rw [exchangesLeft_startCommand _ _ _ (by decide)]
        have : iterationsLeft (startCommand .initIdleWait true u) = iterationsLeft s := by
          simp [iterationsLeft, hp, hit]
        simp only [operationLeft, startCommand_phase, this]
        simp [SubPhase.inCommand, hp]
  · unfold afterReadRegister
    split
    · simp [exchangesLeft, busy, ← htop, ht, procedureLeft, pollLeft, operationLeft,
        SubPhase.inCommand, hp, rxLength, receiveBound, budget]
    · rw [exchangesLeft_of_idle rfl]; omega
  · unfold afterReadCommand
    split
    · simp [exchangesLeft, busy, ← htop, ht, procedureLeft, pollLeft, operationLeft,
        SubPhase.inCommand, hp, rxLength, receiveBound, budget]
    · rw [exchangesLeft_of_idle rfl]; omega
  · unfold afterWriteCommand
    split
    · simp [exchangesLeft, busy, ← htop, ht, procedureLeft, operationLeft,
        SubPhase.inCommand, hp]
      omega
    · rw [exchangesLeft_of_idle rfl]; omega
  · rw [exchangesLeft_of_idle rfl]

theorem returnFrom_left (s u : State) (hs : s.phase.sub ≠ .none)
    (htop : s.phase.top = u.phase.top) (ha : s.phase.acmd = u.phase.acmd)
    (hp : s.params = u.params) (hit : s.it = u.it) :
    exchangesLeft (returnFrom s.phase.sub u) ≤ operationLeft s := by
  unfold returnFrom
  split <;> rename_i hsub
  · exact afterCommand_left s u (by simp [hsub, SubPhase.inCommand]) htop ha hp hit
  · exact afterCommand_left s u (by simp [hsub, SubPhase.inCommand]) htop ha hp hit
  · exact afterCommand_left s u (by simp [hsub, SubPhase.inCommand]) htop ha hp hit
  · unfold afterReplyBytes
    split <;> try (rw [exchangesLeft_of_idle rfl]; omega)
    rename_i ht
    unfold afterReply
    split
    · rw [exchangesLeft_startCommand _ _ _ (by decide)]
      obtain ⟨m, hm⟩ : ∃ m, max 1 s.params.initBudget = m + 1 :=
        ⟨max 1 s.params.initBudget - 1, by omega⟩
      have h2 : iterationsLeft (startCommand .initIdleWait false { u with it := 0 }) - 1 = m := by
        simp [iterationsLeft, ← hp]; omega
      simp only [operationLeft, startCommand_phase, h2, htop, ht, hm, idleWaitBound_succ]
      simp [SubPhase.inCommand, hsub, hp]; omega
    · rw [exchangesLeft_of_idle rfl]; omega
  all_goals first | exact absurd hsub hs | skip
  all_goals
    rw [exchangesLeft_of_idle]
    · omega
    · simp only [afterReceive, afterTransmit, afterRegisterBlock, afterReadBlock, afterWriteBlock,
        decodeRegisterLatch, becomeReady]
      (repeat' split) <;> rfl

/-- Every engine step of a busy engine takes at least one off the bound of R238. -/
theorem exchangesLeft_engineStep {s : State} (i : Byte) (h : busy s = true) :
    exchangesLeft (engineStep i s) + 1 ≤ exchangesLeft s := by
  rw [engineStep_busy i h]
  have hs : exchangesLeft s = max 1 (procedureLeft (rxLength s.phase.top) s) + operationLeft s := by
    simp [exchangesLeft, h]
  by_cases hsub : s.phase.sub = .none
  · have hx : (exchange (rxLength s.phase.top) i (latchFrame s)).phase.sub = .none := by
      simp [exchange, react, hsub]
    rw [if_pos hx, hsub]
    simp only [returnFrom]
    rw [exchangesLeft_of_idle rfl, hs]
    omega
  · split
    · have := returnFrom_left s (exchange (rxLength s.phase.top) i (latchFrame s)) hsub
        (by simp) (by simp) (by simp) (by simp)
      omega
    · rename_i hx
      have h1 := procedureLeft_exchange (rxLength s.phase.top) i (latchFrame s) (by simpa using hsub)
      have h2 : procedureLeft (rxLength s.phase.top) (latchFrame s)
          = procedureLeft (rxLength s.phase.top) s := by simp [procedureLeft, pollLeft, runLeft]
      have h3 := procedureLeft_pos (rxLength s.phase.top) _ hx
      obtain ⟨hc, hr⟩ := react_sub (rxLength s.phase.top) i
        (record (outByte (latchFrame s)) i (latchFrame s)) hx
      have h4 : operationLeft (exchange (rxLength s.phase.top) i (latchFrame s)) = operationLeft s := by
        have hc' : (exchange (rxLength s.phase.top) i (latchFrame s)).phase.sub.inCommand
            = s.phase.sub.inCommand := by simpa [exchange] using hc
        have hr' : (exchange (rxLength s.phase.top) i (latchFrame s)).phase.sub = .r7Bytes
            ↔ s.phase.sub = .r7Bytes := by simpa [exchange] using hr
        simp only [operationLeft, hc', hr', exchange_top, exchange_params, exchange_acmd,
          latchFrame_phase, iterationsLeft, exchange_it, latchFrame_it, latchFrame_params]
      have h5 : busy (exchange (rxLength s.phase.top) i (latchFrame s)) = true := by
        simpa [busy] using h
      simp only [exchangesLeft, h5, if_true, h4, exchange_top, latchFrame_phase, h]
      omega

theorem exchangesLeft_cardMoves (s : State) : exchangesLeft (cardMoves s) = exchangesLeft s := rfl

theorem exchangesLeft_tick {s : State} (h : busy s = true) :
    exchangesLeft (tick s) + 1 ≤ exchangesLeft s := by
  rw [tick_busy h]; exact exchangesLeft_engineStep (s := cardMoves s) _ h

theorem exchangesLeft_pos {s : State} (h : busy s = true) : 1 ≤ exchangesLeft s := by
  simp [exchangesLeft, h]; omega

theorem exchangesLeft_zero {s : State} (h : exchangesLeft s = 0) : busy s = false := by
  cases hb : busy s
  · rfl
  · have := exchangesLeft_pos hb; omega

/-! ## Running to the end (R104, R210) -/

theorem runSteps_idle (fuel : Nat) {s : State} (h : busy s = false) : runSteps fuel s = s := by
  cases fuel <;> simp [runSteps, h]

/-- Any two amounts of fuel that reach the bound of R238 give the same run. -/
theorem runSteps_enough (a : Nat) :
    ∀ (b : Nat) (s : State), exchangesLeft s ≤ a → exchangesLeft s ≤ b →
      runSteps a s = runSteps b s := by
  induction a with
  | zero =>
    intro b s h _
    have hb : busy s = false := exchangesLeft_zero (by omega)
    rw [runSteps_idle _ hb, runSteps_idle _ hb]
  | succ a ih =>
    intro b s h h'
    cases hb : busy s
    · rw [runSteps_idle _ hb, runSteps_idle _ hb]
    · have hlt := exchangesLeft_tick hb
      obtain ⟨b, rfl⟩ : ∃ c, b = c + 1 := ⟨b - 1, by omega⟩
      simp only [runSteps, hb, if_true]
      exact ih b (tick s) (by omega) (by omega)

theorem finish_idle {s : State} (h : busy s = false) : finish s = s := runSteps_idle _ h

/-- Running to the end takes one engine step and runs to the end. -/
theorem finish_tick {s : State} (h : busy s = true) : finish s = finish (tick s) := by
  have hlt := exchangesLeft_tick h
  obtain ⟨m, hm⟩ : ∃ m, exchangesLeft s = m + 1 := ⟨exchangesLeft s - 1, by omega⟩
  have : finish s = runSteps m (tick s) := by simp [finish, hm, runSteps, h]
  rw [this]
  exact runSteps_enough _ _ _ (by omega) (by omega)

/-- To show something of where a run ends: it holds where the engine is IDLE, and a step hands it back. -/
theorem finish_induction {P : State → State → Prop}
    (idle : ∀ s, busy s = false → P s s)
    (step : ∀ s t, busy s = true → P (tick s) t → P s t) (s : State) : P s (finish s) := by
  suffices h : ∀ m s, exchangesLeft s ≤ m → P s (finish s) from h _ s le_rfl
  intro m
  induction m with
  | zero =>
    intro s h
    have hb : busy s = false := exchangesLeft_zero (by omega)
    rw [finish_idle hb]; exact idle s hb
  | succ m ih =>
    intro s h
    cases hb : busy s
    · rw [finish_idle hb]; exact idle s hb
    · rw [finish_tick hb]
      exact step s _ hb (ih (tick s) (by have := exchangesLeft_tick hb; omega))

/-- An operation that has been run to its end leaves nothing of a payload (R50, R64). -/
theorem finish_drops {s : State} (h : busy s = true) : (finish s).rxData = [] ∧ (finish s).txData = none := by
  refine finish_induction
    (P := fun s t => busy s = true ∨ (s.rxData = [] ∧ s.txData = none) → t.rxData = [] ∧ t.txData = none)
    (fun s hi h => h.resolve_left (by simp [hi])) (fun s t hb ih _ => ih ?_) s (.inl h)
  cases hx : busy (tick s)
  · exact .inr (tick_drops hb hx)
  · exact .inl rfl

/-- Every operation ends (R210). -/
theorem busy_finish (s : State) : busy (finish s) = false :=
  finish_induction (P := fun _ t => busy t = false) (fun _ h => h) (fun _ _ _ h => h) s

theorem finish_params (s : State) : (finish s).params = s.params :=
  finish_induction (P := fun s t => t.params = s.params) (fun _ _ => rfl)
    (fun s _ _ h => h.trans (tick_params s)) s

theorem finish_stalled (s : State) : (finish s).stalled = s.stalled :=
  finish_induction (P := fun s t => t.stalled = s.stalled) (fun _ _ => rfl)
    (fun s _ _ h => h.trans (tick_stalled s)) s

/-- A run to the end adds to the history, at most the bound of R238. -/
theorem finish_history (s : State) :
    ∃ added, (finish s).history = s.history ++ added ∧ added.length ≤ exchangesLeft s := by
  refine finish_induction
    (P := fun s t => ∃ added, t.history = s.history ++ added ∧ added.length ≤ exchangesLeft s)
    (fun s _ => ⟨[], by simp⟩) (fun s t h ⟨added, ha, hl⟩ => ?_) s
  refine ⟨(outByte s, cardByte s) :: added, ?_, ?_⟩
  · rw [ha, tick_history h]; simp
  · have := exchangesLeft_tick h
    simp only [List.length_cons]; omega

end Sys2Proof.Machine
end

