-- ==== Sys2Proof/Laws/Callers.lean ====
section
/-! SUPPORT. What an operation does when a procedure returns, case by case, and one engine step as an exchange
with such a return after it. -/

namespace Sys2Proof.Machine

/-- What an exchange leaves alone, whichever of its cases it is. -/
theorem ReactsTo.frame_kept {length : Nat} {i : Byte} {u v : State} (h : ReactsTo length i u v) :
    ReactFrame u v := by
  cases h <;> constructor <;> rfl

/-- How a procedure ends. -/
theorem ReactsTo.ended {length : Nat} {i : Byte} {u v : State} (h : ReactsTo length i u v)
    (_ : u.phase.sub ≠ .none) (hv : v.phase.sub = .none) :
    (u.phase.sub = .cmdR1 ∧ v.n = u.n + 1 ∧ v.r7 = u.r7 ∧ v.rxData = u.rxData ∧
      v.framerResult = u.framerResult ∧
        ((isR1 i = true ∧ v.r1 = .answer (i.extractLsb' 0 7)) ∨
          (isR1 i = false ∧ u.params.retryBudget ≤ u.n + 1 ∧ v.r1 = .timeout))) ∨
      (u.phase.sub = .r7Bytes ∧ 4 ≤ u.k + 1 ∧ v.r7 = u.r7.setIfInBounds u.k i ∧ v.r1 = u.r1 ∧
        v.rxData = u.rxData ∧ v.framerResult = u.framerResult) ∨
      (v.r1 = u.r1 ∧ v.r7 = u.r7 ∧ v.rxData = u.rxData ∧
        ((u.phase.sub = .rxToken ∧ isStartToken i = false ∧ u.params.retryBudget ≤ u.n + 1 ∧
            v.n = u.n + 1 ∧ v.framerResult = .io) ∨
          (u.phase.sub = .rxCrc ∧ 2 ≤ u.k + 1 ∧ v.framerResult = .ok) ∨
          (u.phase.sub = .txResp ∧ isAccepting i = false ∧ v.framerResult = .io) ∨
          (u.phase.sub = .txBusy ∧ isReady i = true ∧ v.n = u.n + 1 ∧ v.framerResult = .ok) ∨
          (u.phase.sub = .txBusy ∧ isReady i = false ∧ u.params.retryBudget ≤ u.n + 1 ∧
            v.n = u.n + 1 ∧ v.framerResult = .io))) := by
  cases h <;> simp_all

/-- Everything that can follow when the procedure at control point `sub` has ended in the state `v`. -/
inductive ResumesTo (sub : SubPhase) (v : State) : State → Prop where
  | resetPassed (top : v.phase.top = .initReset) (group : sub.inCommand = true) (r1 : v.r1 = .answer 1#7) :
      ResumesTo sub v (startCommand .initVoltage false { v with dev := { v.dev with present := true } })
  | resetFailed (top : v.phase.top = .initReset) (group : sub.inCommand = true) (r1 : v.r1 ≠ .answer 1#7) :
      ResumesTo sub v (doneInit .notPresent v)
  | voltageAnswered (top : v.phase.top = .initVoltage) (group : sub.inCommand = true)
      (r1 : v.r1 = .answer 1#7) : ResumesTo sub v (startRun .r7Bytes v)
  | voltageRefused (top : v.phase.top = .initVoltage) (group : sub.inCommand = true)
      (r1 : v.r1 ≠ .answer 1#7) : ResumesTo sub v (doneInit .unsupported v)
  | replyPassed (top : v.phase.top = .initVoltage) (group : sub = .r7Bytes)
      (r7 : replyAccepted v.r7 = true) :
      ResumesTo sub v (startCommand .initIdleWait false { v with it := 0 })
  | replyFailed (top : v.phase.top = .initVoltage) (group : sub = .r7Bytes)
      (r7 : replyAccepted v.r7 = false) : ResumesTo sub v (doneInit .unsupported v)
  | prefixTimedOut (top : v.phase.top = .initIdleWait) (acmd : v.phase.acmd = false)
      (group : sub.inCommand = true) (r1 : v.r1 = .timeout) : ResumesTo sub v (doneInit .failed v)
  | prefixAnswered (top : v.phase.top = .initIdleWait) (acmd : v.phase.acmd = false)
      (group : sub.inCommand = true) (r1 : v.r1 ≠ .timeout) :
      ResumesTo sub v (startCommand .initIdleWait true v)
  | waitTimedOut (top : v.phase.top = .initIdleWait) (acmd : v.phase.acmd = true)
      (group : sub.inCommand = true) (r1 : v.r1 = .timeout) : ResumesTo sub v (doneInit .failed v)
  | waitOver (top : v.phase.top = .initIdleWait) (acmd : v.phase.acmd = true)
      (group : sub.inCommand = true) (r1 : v.r1 ≠ .timeout) (left : v.r1 ≠ .answer 1#7) :
      ResumesTo sub v (startCommand .initReadReg false { v with it := v.it + 1 })
  | waitExhausted (top : v.phase.top = .initIdleWait) (acmd : v.phase.acmd = true)
      (group : sub.inCommand = true) (r1 : v.r1 = .answer 1#7) (bound : v.params.initBudget ≤ v.it + 1) :
      ResumesTo sub v (doneInit .failed { v with it := v.it + 1 })
  | waitAgain (top : v.phase.top = .initIdleWait) (acmd : v.phase.acmd = true)
      (group : sub.inCommand = true) (r1 : v.r1 = .answer 1#7) (bound : v.it + 1 < v.params.initBudget) :
      ResumesTo sub v (startCommand .initIdleWait false { v with it := v.it + 1 })
  | registerAnswered (top : v.phase.top = .initReadReg) (group : sub.inCommand = true)
      (r1 : v.r1 = .answer 0#7) : ResumesTo sub v (startReceive v)
  | registerRefused (top : v.phase.top = .initReadReg) (group : sub.inCommand = true)
      (r1 : v.r1 ≠ .answer 0#7) : ResumesTo sub v (doneInit .failed v)
  | registerMissing (top : v.phase.top = .initReadReg)
      (group : sub = .rxToken ∨ sub = .rxPayload ∨ sub = .rxCrc) (result : v.framerResult ≠ .ok) :
      ResumesTo sub v (doneInit .failed v)
  | registerForeign (top : v.phase.top = .initReadReg)
      (group : sub = .rxToken ∨ sub = .rxPayload ∨ sub = .rxCrc) (result : v.framerResult = .ok)
      (version : csdStructure (latchCsd v).csd ≠ v.params.csdHcStruct) :
      ResumesTo sub v (doneInit .unsupported (latchCsd v))
  | registerReady (top : v.phase.top = .initReadReg)
      (group : sub = .rxToken ∨ sub = .rxPayload ∨ sub = .rxCrc) (result : v.framerResult = .ok)
      (version : csdStructure (latchCsd v).csd = v.params.csdHcStruct) :
      ResumesTo sub v (becomeReady (csdCount v.params (latchCsd v).csd) (latchCsd v))
  | readAnswered (top : v.phase.top = .opRead) (group : sub.inCommand = true) (r1 : v.r1 = .answer 0#7) :
      ResumesTo sub v (startReceive v)
  | readRefused (top : v.phase.top = .opRead) (group : sub.inCommand = true) (r1 : v.r1 ≠ .answer 0#7) :
      ResumesTo sub v (fail .io (dropPayload v))
  | readDelivered (top : v.phase.top = .opRead)
      (group : sub = .rxToken ∨ sub = .rxPayload ∨ sub = .rxCrc) (result : v.framerResult = .ok) :
      ResumesTo sub v (respond (.data v.rxData) (dropPayload (advancePosition v)))
  | readMissing (top : v.phase.top = .opRead)
      (group : sub = .rxToken ∨ sub = .rxPayload ∨ sub = .rxCrc) (result : v.framerResult ≠ .ok) :
      ResumesTo sub v (fail .io (dropPayload v))
  | writeAnswered (top : v.phase.top = .opWrite) (group : sub.inCommand = true) (r1 : v.r1 = .answer 0#7) :
      ResumesTo sub v (goto .txToken v)
  | writeRefused (top : v.phase.top = .opWrite) (group : sub.inCommand = true) (r1 : v.r1 ≠ .answer 0#7) :
      ResumesTo sub v (fail .io (dropPayload v))
  | writeStored (top : v.phase.top = .opWrite) (group : sub.inData = true) (result : v.framerResult = .ok) :
      ResumesTo sub v (respond (.status .ok) (dropPayload (advancePosition v)))
  | writeFailed (top : v.phase.top = .opWrite) (group : sub.inData = true) (result : v.framerResult ≠ .ok) :
      ResumesTo sub v (fail .io (dropPayload v))
  | abandoned (illegal : ({ v.phase with sub := sub } : Phase).legal = false) : ResumesTo sub v (abandon v)

/-- A caller does one of the things listed. -/
theorem returnFrom_resumesTo (sub : SubPhase) (v : State) (hb : busy v = true) (hs : sub ≠ .none) :
    ResumesTo sub v (returnFrom sub v) := by
  have hcommand : sub.inCommand = true → ResumesTo sub v (afterCommand v) := by
    intro hg
    unfold afterCommand
    split <;> rename_i ht
    · unfold afterReset
      by_cases h : v.r1 = .answer 1#7
      · rw [if_pos (by simp [R1Result.isIdle, h])]; exact .resetPassed ht hg h
      · rw [if_neg (by simp [R1Result.isIdle, h])]; exact .resetFailed ht hg h
    · unfold afterInterfaceCondition
      by_cases h : v.r1 = .answer 1#7
      · rw [if_pos (by simp [R1Result.isIdle, h])]; exact .voltageAnswered ht hg h
      · rw [if_neg (by simp [R1Result.isIdle, h])]; exact .voltageRefused ht hg h
    · cases ha : v.phase.acmd
      · rw [if_neg (by simp)]
        unfold afterPrefix
        by_cases h : v.r1 = .timeout
        · rw [if_pos (by simp [R1Result.isTimeout, h])]; exact .prefixTimedOut ht ha hg h
        · rw [if_neg (by simp [R1Result.isTimeout, h])]; exact .prefixAnswered ht ha hg h
      · rw [if_pos rfl]
        unfold afterIdleWait
        by_cases h : v.r1 = .timeout
        · rw [if_pos (by simp [R1Result.isTimeout, h])]; exact .waitTimedOut ht ha hg h
        · rw [if_neg (by simp [R1Result.isTimeout, h])]
          by_cases h1 : v.r1 = .answer 1#7
          · rw [if_neg (by simp [R1Result.isIdle, h1])]
            by_cases hb : v.params.initBudget ≤ v.it + 1
            · rw [if_pos (by simp [idleWaitExhausted, hb])]; exact .waitExhausted ht ha hg h1 hb
            · rw [if_neg (by simp [idleWaitExhausted, hb])]
              exact .waitAgain ht ha hg h1 (by omega)
          · rw [if_pos (by simp [R1Result.isIdle, h1])]; exact .waitOver ht ha hg h h1
    · unfold afterReadRegister
      by_cases h : v.r1 = .answer 0#7
      · rw [if_pos (by simp [R1Result.isZero, h])]; exact .registerAnswered ht hg h
      · rw [if_neg (by simp [R1Result.isZero, h])]; exact .registerRefused ht hg h
    · unfold afterReadCommand
      by_cases h : v.r1 = .answer 0#7
      · rw [if_pos (by simp [R1Result.isZero, h])]; exact .readAnswered ht hg h
      · rw [if_neg (by simp [R1Result.isZero, h])]; exact .readRefused ht hg h
    · unfold afterWriteCommand
      by_cases h : v.r1 = .answer 0#7
      · rw [if_pos (by simp [R1Result.isZero, h])]; exact .writeAnswered ht hg h
      · rw [if_neg (by simp [R1Result.isZero, h])]; exact .writeRefused ht hg h
    · simp [busy, ht] at hb
  have hreceive : sub = .rxToken ∨ sub = .rxPayload ∨ sub = .rxCrc →
      ResumesTo sub v (afterReceive v) := by
    intro hg
    unfold afterReceive
    split <;> rename_i ht
    · unfold afterRegisterBlock
      by_cases h : v.framerResult = .ok
      · rw [if_pos h]
        have hp : (latchCsd v).params = v.params := by unfold latchCsd; split <;> rfl
        unfold decodeRegisterLatch
        by_cases hv : csdStructure (latchCsd v).csd = v.params.csdHcStruct
        · simp only [csdDecode, hp, hv, if_true]; exact .registerReady ht hg h hv
        · simp only [csdDecode, hp, hv, if_false]; exact .registerForeign ht hg h hv
      · rw [if_neg h]; exact .registerMissing ht hg h
    · unfold afterReadBlock
      by_cases h : v.framerResult = .ok
      · rw [if_pos h]; exact .readDelivered ht hg h
      · rw [if_neg h]; exact .readMissing ht hg h
    all_goals
      refine .abandoned ?_
      rcases hg with rfl | rfl | rfl <;> simp [Phase.legal, ht, SubPhase.inCommand]
  have htransmit : (sub = .txToken ∨ sub = .txPayload ∨ sub = .txCrc ∨ sub = .txResp ∨ sub = .txBusy) →
      ResumesTo sub v (afterTransmit v) := by
    intro hg
    have hd : sub.inData = true := by rcases hg with rfl | rfl | rfl | rfl | rfl <;> rfl
    unfold afterTransmit
    split <;> rename_i ht
    · unfold afterWriteBlock
      by_cases h : v.framerResult = .ok
      · rw [if_pos h]; exact .writeStored ht hd h
      · rw [if_neg h]; exact .writeFailed ht hd h
    all_goals
      refine .abandoned ?_
      rcases hg with rfl | rfl | rfl | rfl | rfl <;> simp [Phase.legal, ht, SubPhase.inCommand]
  cases sub with
  | none => exact absurd rfl hs
  | cmdReady => exact hcommand rfl
  | cmdFrame => exact hcommand rfl
  | cmdR1 => exact hcommand rfl
  | r7Bytes =>
    simp only [returnFrom]
    unfold afterReplyBytes
    split <;> rename_i ht
    · unfold afterReply
      cases h : replyAccepted v.r7
      · rw [if_neg (by simp)]; exact .replyFailed ht rfl h
      · rw [if_pos rfl]; exact .replyPassed ht rfl h
    all_goals
      refine .abandoned ?_
      simp [Phase.legal, ht, SubPhase.inCommand]
  | rxToken => exact hreceive (by simp)
  | rxPayload => exact hreceive (by simp)
  | rxCrc => exact hreceive (by simp)
  | txToken => exact htransmit (by simp)
  | txPayload => exact htransmit (by simp)
  | txCrc => exact htransmit (by simp)
  | txResp => exact htransmit (by simp)
  | txBusy => exact htransmit (by simp)

/-- A busy engine in a legal phase is at a control point of some procedure. -/
theorem sub_ne_none {s : State} (hb : busy s = true) (hl : s.phase.legal = true) :
    s.phase.sub ≠ .none := by
  intro hs
  simp only [busy] at hb
  cases ht : s.phase.top <;> simp_all [Phase.legal, SubPhase.inCommand]

/-- One engine step: the exchange inside the procedure, `u` being the state with the frame latched and the pair
recorded; and when that ends the procedure, the caller's decision. -/
theorem engineStep_cases {s : State} (i : Byte) (hb : busy s = true) (hs : s.phase.sub ≠ .none) :
    ∃ f v, (s.phase.sub ≠ .cmdReady ∨ s.n ≠ 0 → f = s.frame) ∧
      (s.phase.sub = .cmdReady → s.n = 0 → ∀ c, commandOf s = some c → f = c.frame) ∧
      ReactsTo (rxLength s.phase.top) i
        { s with frame := f, history := s.history ++ [(outByte s, i)] } v ∧
      ((v.phase.sub ≠ .none ∧ engineStep i s = v) ∨
        (v.phase.sub = .none ∧ ResumesTo s.phase.sub v (engineStep i s))) := by
  obtain ⟨f, hf⟩ := latchFrame_cases s
  have hu : record (outByte (latchFrame s)) i (latchFrame s) =
      { s with frame := f, history := s.history ++ [(outByte s, i)] } := by
    rw [outByte_latchFrame, hf]; rfl
  have hr := react_reactsTo (rxLength s.phase.top) i
    { s with frame := f, history := s.history ++ [(outByte s, i)] } hs
  have he : engineStep i s =
      if (react (rxLength s.phase.top) i
          { s with frame := f, history := s.history ++ [(outByte s, i)] }).phase.sub = .none then
        returnFrom s.phase.sub (react (rxLength s.phase.top) i
          { s with frame := f, history := s.history ++ [(outByte s, i)] })
      else react (rxLength s.phase.top) i
          { s with frame := f, history := s.history ++ [(outByte s, i)] } := by
    rw [engineStep_busy i hb, exchange, hu]
  have hframe : f = (latchFrame s).frame := by rw [hf]
  refine ⟨f, _, ?_, ?_, hr, ?_⟩
  · intro h
    rw [hframe, latchFrame, if_neg]
    rintro ⟨h1, h2⟩
    rcases h with h | h
    · exact h h1
    · exact h h2
  · intro h1 h2 c hc
    rw [hframe, latchFrame, if_pos ⟨h1, h2⟩, hc]
  · by_cases hx : (react (rxLength s.phase.top) i
        { s with frame := f, history := s.history ++ [(outByte s, i)] }).phase.sub = .none
    · rw [if_pos hx] at he
      refine .inr ⟨hx, ?_⟩
      rw [he]
      exact returnFrom_resumesTo _ _
        (by simpa [busy, (react_frame _ _ _).top] using hb) hs
    · rw [if_neg hx] at he
      exact .inl ⟨hx, he⟩

end Sys2Proof.Machine
end

