-- ==== Sys2Proof/Laws/Card.lean ====
section
/-! SUPPORT. The store of the mock card: its operations keep the canonical form, a read after a write, and
that the card agent keeps the form whatever is exchanged. -/

namespace Sys2Proof.Machine

/-! ## Reading -/

@[simp] theorem Memory.read_nil (x : Nat) : Memory.read [] x = Memory.default := rfl

@[simp] theorem Memory.read_cons (a : Nat) (v : Byte) (m : Memory) (x : Nat) :
    Memory.read ((a, v) :: m) x = if a = x then v else Memory.read m x := rfl

/-- The lowest address of a canonical memory bounds all of them from below. -/
def Memory.above (x : Nat) (m : Memory) : Prop := ∀ c ∈ m, x < c.1

theorem Memory.read_above {m : Memory} {x y : Nat} (h : Memory.above x m) (hy : y ≤ x) :
    Memory.read m y = Memory.default := by
  induction m with
  | nil => rfl
  | cons c m ih =>
    obtain ⟨a, v⟩ := c
    have ha : x < a := h (a, v) (by simp)
    rw [Memory.read_cons, if_neg (by omega)]
    exact ih fun c hc => h c (by simp [hc])

theorem Memory.wf_cons (a : Nat) (v : Byte) (m : Memory) :
    Memory.wf ((a, v) :: m) = true ↔
      v ≠ Memory.default ∧ Memory.above a m ∧ Memory.wf m = true := by
  induction m generalizing a v with
  | nil => simp [Memory.wf, Memory.above]
  | cons c m ih =>
    obtain ⟨b, w⟩ := c
    have hw := ih b w
    simp only [Memory.wf, Bool.and_eq_true, decide_eq_true_eq, bne_iff_ne, ne_eq]
    constructor
    · rintro ⟨⟨hv, hab⟩, hm⟩
      refine ⟨hv, ?_, hm⟩
      intro c hc
      rcases List.mem_cons.1 hc with rfl | hc
      · exact hab
      · exact Nat.lt_trans hab ((hw.1 hm).2.1 c hc)
    · rintro ⟨hv, ha, hm⟩
      exact ⟨⟨hv, ha (b, w) (by simp)⟩, hm⟩

/-! ## Writing -/

theorem Memory.place_wf {x : Nat} {w : Byte} {m : Memory} (h : Memory.wf m = true)
    (ha : Memory.above x m) : Memory.wf (Memory.place x w m) = true := by
  unfold Memory.place
  split
  · exact h
  · exact (Memory.wf_cons x w m).2 ⟨‹_›, ha, h⟩

theorem Memory.write_above {x y : Nat} {w : Byte} {m : Memory} (h : Memory.above y m) (hy : y < x) :
    Memory.above y (Memory.write m x w) := by
  have hp : ∀ m', Memory.above y m' → Memory.above y (Memory.place x w m') := by
    intro m' h' c hc
    unfold Memory.place at hc
    split at hc
    · exact h' c hc
    · rcases List.mem_cons.1 hc with rfl | hc
      · exact hy
      · exact h' c hc
  induction m with
  | nil => exact hp [] (by simp [Memory.above])
  | cons c m ih =>
    obtain ⟨a, v⟩ := c
    have hm : Memory.above y m := fun c hc => h c (by simp [hc])
    simp only [Memory.write]
    split
    · exact hp _ h
    · split
      · exact hp _ hm
      · intro c hc
        rcases List.mem_cons.1 hc with rfl | hc
        · exact h _ (by simp)
        · exact ih hm c hc

/-- A write keeps the canonical form. -/
theorem Memory.write_wf {m : Memory} (x : Nat) (w : Byte) (h : Memory.wf m = true) :
    Memory.wf (Memory.write m x w) = true := by
  induction m with
  | nil => exact Memory.place_wf rfl (by simp [Memory.above])
  | cons c m ih =>
    obtain ⟨a, v⟩ := c
    obtain ⟨hv, ha, hm⟩ := (Memory.wf_cons a v m).1 h
    simp only [Memory.write]
    split
    · refine Memory.place_wf h fun c hc => ?_
      rcases List.mem_cons.1 hc with rfl | hc
      · assumption
      · exact Nat.lt_trans ‹_› (ha c hc)
    · split
      · subst_vars; exact Memory.place_wf hm ha
      · exact (Memory.wf_cons a v _).2 ⟨hv, Memory.write_above ha (by omega), ih hm⟩

theorem Memory.read_place {x y : Nat} {w : Byte} {m : Memory} (ha : Memory.above x m) :
    Memory.read (Memory.place x w m) y = if x = y then w else Memory.read m y := by
  unfold Memory.place
  split
  · rename_i hw
    by_cases hxy : x = y
    · rw [if_pos hxy, Memory.read_above ha (by omega), hw]
    · rw [if_neg hxy]
  · rfl

/-- A read after a write: the byte written, and every other byte as before. -/
theorem Memory.read_write {m : Memory} (h : Memory.wf m = true) (x y : Nat) (w : Byte) :
    Memory.read (Memory.write m x w) y = if x = y then w else Memory.read m y := by
  induction m with
  | nil => exact Memory.read_place (by simp [Memory.above])
  | cons c m ih =>
    obtain ⟨a, v⟩ := c
    obtain ⟨hv, ha, hm⟩ := (Memory.wf_cons a v m).1 h
    simp only [Memory.write]
    split
    · refine Memory.read_place fun c hc => ?_
      rcases List.mem_cons.1 hc with rfl | hc
      · assumption
      · exact Nat.lt_trans ‹_› (ha c hc)
    · split
      · subst_vars
        rw [Memory.read_place ha, Memory.read_cons]
        split <;> rfl
      · rw [Memory.read_cons, Memory.read_cons, ih hm]
        by_cases hay : a = y
        · simp only [if_pos hay]; rw [if_neg (by omega)]
        · simp only [if_neg hay]

theorem Memory.writeBytes_wf (bytes : List Byte) {m : Memory} (a : Nat) (h : Memory.wf m = true) :
    Memory.wf (Memory.writeBytes m a bytes) = true := by
  induction bytes generalizing m a with
  | nil => exact h
  | cons b bytes ih => exact ih _ (Memory.write_wf a b h)

theorem Memory.read_writeBytes (bytes : List Byte) {m : Memory} (a x : Nat) (h : Memory.wf m = true) :
    Memory.read (Memory.writeBytes m a bytes) x =
      if hx : a ≤ x ∧ x < a + bytes.length then bytes[x - a]'(by omega) else Memory.read m x := by
  induction bytes generalizing m a with
  | nil => simp [Memory.writeBytes]
  | cons b bytes ih =>
    simp only [Memory.writeBytes]
    rw [ih _ (Memory.write_wf a b h), Memory.read_write h]
    by_cases hx : a = x
    · subst hx; simp
    · by_cases hr : a + 1 ≤ x ∧ x < a + 1 + bytes.length
      · rw [dif_pos hr, dif_pos (by simp; omega)]
        have : x - a = (x - (a + 1)) + 1 := by omega
        simp [this]
      · rw [dif_neg hr, dif_neg (by simp; omega), if_neg hx]

theorem Memory.writeSector_wf {m : Memory} (sector : Nat) (bytes : List Byte)
    (h : Memory.wf m = true) : Memory.wf (Memory.writeSector m sector bytes) = true :=
  Memory.writeBytes_wf bytes _ h

/-! ## The card agent -/

theorem Mock.reply_store (m : Mock) (index arg : Nat) : (m.reply index arg).2.store = m.store := by
  unfold Mock.reply
  repeat' split
  all_goals rfl

theorem Mock.command_store (m : Mock) (frame : List Byte) : (m.command frame).store = m.store := by
  unfold Mock.command
  split
  · exact Mock.reply_store m _ _
  · rfl

theorem Mock.collect_store (m : Mock) (o : Byte) : (m.collect o).store = m.store := by
  unfold Mock.collect
  simp only []
  repeat' split
  all_goals first | exact Mock.command_store m _ | rfl

/-- What the mock's store can become in one exchange: the same, or the same with one sector written. -/
theorem Mock.answer_store (m : Mock) (o : Byte) :
    (m.answer o).2.store = m.store ∨
      ∃ sector bytes, m.capture = .collecting sector bytes ∧ bytes.length + 1 = blockBytes + 2 ∧
        (m.answer o).2.store = m.store.writeSector sector ((bytes ++ [o]).take blockBytes) := by
  unfold Mock.answer
  simp only []
  split
  · left; split <;> rfl
  · rename_i sector bytes hc
    unfold Mock.captureByte
    simp only []
    split
    · rename_i hl
      exact .inr ⟨sector, bytes, hc, by simpa using hl, rfl⟩
    · exact .inl rfl
  · left; exact Mock.collect_store _ o

/-- The card agent keeps the canonical form of its store. -/
theorem Card.answer_wf {c : Card} (draws : Nat) (o : Byte) (h : c.wf = true) :
    (c.answer draws o).2.1.wf = true := by
  cases c with
  | oracle answers => cases answers <;> rfl
  | constant b => rfl
  | mock m =>
    simp only [Card.wf, Card.answer] at h ⊢
    rcases m.answer_store o with he | ⟨sector, bytes, -, -, he⟩
    · rw [he]; exact h
    · rw [he]; exact Memory.writeSector_wf sector _ h

end Sys2Proof.Machine
end

