-- ==== Sys2Proof/Laws/Encoding.lean ====
section
/-! SUPPORT. The fields of the encodings: taking a word apart and putting it together again. -/

namespace Sys2Proof

/-- The four bytes of a big-endian word, put together (R53 a). -/
theorem ofBe32_be32 (v : BitVec 32) :
    ofBe32 (v.extractLsb' 24 8) (v.extractLsb' 16 8) (v.extractLsb' 8 8) (v.extractLsb' 0 8) = v := by
  apply BitVec.eq_of_getLsbD_eq
  intro i hi
  simp only [ofBe32, BitVec.getLsbD_append, BitVec.getLsbD_extractLsb']
  split
  · simp [*]
  · split
    · have : 8 + (i - 8) = i := by omega
      simp [*]
    · split
      · have : 16 + (i - 8 - 8) = i := by omega
        simp [*]
      · have : 24 + (i - 8 - 8 - 8) = i := by omega
        have : i - 8 - 8 - 8 < 8 := by omega
        simp [*]

/-- A big-endian word taken apart again: its four bytes (R53 a). -/
theorem be32_ofBe32 (b1 b2 b3 b4 : Byte) : be32 (ofBe32 b1 b2 b3 b4) = [b1, b2, b3, b4] := by
  have pick : ∀ (start : Nat) (b : Byte), (∀ i, i < 8 → (ofBe32 b1 b2 b3 b4).getLsbD (start + i) = b.getLsbD i) →
      (ofBe32 b1 b2 b3 b4).extractLsb' start 8 = b := by
    intro start b h
    apply BitVec.eq_of_getLsbD_eq
    intro i hi
    rw [BitVec.getLsbD_extractLsb', h i hi]
    simp [hi]
  simp only [be32, List.cons.injEq, and_true]
  refine ⟨pick 24 b1 ?_, pick 16 b2 ?_, pick 8 b3 ?_, pick 0 b4 ?_⟩ <;> intro i hi <;>
    simp only [ofBe32, BitVec.getLsbD_append]
  · rw [if_neg (by omega), if_neg (by omega), if_neg (by omega)]
    congr 1; omega
  · rw [if_neg (by omega), if_neg (by omega), if_pos (by omega)]
    congr 1; omega
  · rw [if_neg (by omega), if_pos (by omega)]
    congr 1; omega
  · rw [if_pos (by omega)]
    congr 1; omega

@[simp] theorem be32_length (v : BitVec 32) : (be32 v).length = 4 := rfl

/-- A frame as R71 writes it: head, big-endian argument, CRC/filler. -/
theorem commandFrame_toList (index : BitVec 6) (arg : BitVec 32) :
    (commandFrame index arg).toList = frameHead index :: (be32 arg ++ [crcByte index]) := rfl

/-- The operation code of a request word. -/
theorem requestWord_op (op : BitVec 3) (sector : BitVec 32) (payload : Block) :
    (HostRequest.mk (requestWord op sector) payload).op = op := by
  simp only [HostRequest.op, requestWord]
  apply BitVec.eq_of_getLsbD_eq
  intro i hi
  simp only [BitVec.getLsbD_extractLsb', BitVec.getLsbD_append]
  simp [hi]

/-- The sector field of a request word. -/
theorem requestWord_sector (op : BitVec 3) (sector : BitVec 32) (payload : Block) :
    (HostRequest.mk (requestWord op sector) payload).sector = sector := by
  simp only [HostRequest.sector, requestWord]
  apply BitVec.eq_of_getLsbD_eq
  intro i hi
  simp only [BitVec.getLsbD_extractLsb', BitVec.getLsbD_append]
  simp [hi]

/-- The bits of an R1 byte (R74). -/
theorem r1Byte_bits (bits : BitVec 7) : (r1Byte bits).extractLsb' 0 7 = bits := by
  apply BitVec.eq_of_getLsbD_eq
  intro i hi
  simp only [r1Byte, BitVec.getLsbD_extractLsb', BitVec.getLsbD_append]
  simp [hi]

/-- An R1 byte is one: bit 7 is clear (R74). -/
theorem isR1_r1Byte (bits : BitVec 7) : isR1 (r1Byte bits) = true := by
  revert bits; decide

/-- Every byte that is an R1 is the R1 byte of its low seven bits (R74). -/
theorem r1Byte_of_isR1 : ∀ b : Byte, isR1 b = true → r1Byte (b.extractLsb' 0 7) = b := by decide

/-- The ignored bits of an accepting data response (R77). -/
theorem acceptByte_bits (ignored : BitVec 3) : (acceptByte ignored).extractLsb' 5 3 = ignored := by
  revert ignored; decide

/-- An accepting data response accepts, whatever its ignored bits (R77). -/
theorem isAccepting_acceptByte (ignored : BitVec 3) : isAccepting (acceptByte ignored) = true := by
  revert ignored; decide

/-- Every accepting data response is the one of its ignored bits (R77). -/
theorem acceptByte_of_isAccepting : ∀ d : Byte, isAccepting d = true →
    acceptByte (d.extractLsb' 5 3) = d := by decide

end Sys2Proof
end

