-- ==== Sys2Proof/Laws/PerInstr.lean ====
section
/-! SUPPORT. Statements made once per constructor of Instr. -/

namespace Sys2Proof.Laws.TableWidth

/-- How many bits an encoding has: eight for each byte on the bus, 35 for a request word (R86). -/
def bits : Encoded → Nat
  | .wire bytes => 8 * bytes.length
  | .request _ => 35
  | .nothing => 0

/-- Family TableWidth: a well-formed instruction is encoded in as many bits as R70 and R86 give its format:
48 for a frame, 8 for R1, START, DRESP and READY, 32 for R7, 8 * (1 + length + 2) for the blocks with
length 16 or 512, 128 for the CSD, 35 for a request word, none for INIT. -/
def Statement (i : Instr) : Prop :=
  i.wf = true → bits (encode i) =
    match i.context with
    | .command => 48
    | .status | .token | .dataResponse | .lineState => 8
    | .reply => 32
    | .inbound length => if length = 16 then 152 else 4120
    | .outbound => 4120
    | .register => 128
    | .host => 35
    | .reset => 0

theorem cmd0 : Statement .cmd0 := fun _ => rfl
theorem cmd8 : Statement .cmd8 := fun _ => rfl
theorem cmd9 : Statement .cmd9 := fun _ => rfl
theorem cmd17 (sector : BitVec 32) : Statement (.cmd17 sector) := fun _ => rfl
theorem cmd24 (sector : BitVec 32) : Statement (.cmd24 sector) := fun _ => rfl
theorem acmd41 : Statement .acmd41 := fun _ => rfl
theorem cmd55 : Statement .cmd55 := fun _ => rfl
theorem r1 (b : BitVec 7) : Statement (.r1 b) := fun _ => rfl
theorem r7 (b0 b1 b2 b3 : Byte) : Statement (.r7 b0 b1 b2 b3) := fun _ => rfl
theorem start : Statement .start := fun _ => rfl
theorem drespAccept (ignored : BitVec 3) : Statement (.drespAccept ignored) := fun _ => rfl
theorem ready : Statement .ready := fun _ => rfl

theorem rxblock (payload : List Byte) (crc0 crc1 : Byte) : Statement (.rxblock payload crc0 crc1) := by
  intro h
  simp only [Instr.wf, legalInboundLength, Bool.or_eq_true, beq_iff_eq] at h
  rcases h with h | h <;> simp [bits, encode, inboundBytes, Instr.context, h, blockBytes]

theorem txblock (payload : Block) : Statement (.txblock payload) := by
  intro _
  simp [bits, encode, outboundBytes, Instr.context, payload.property, blockBytes]

theorem csd (register : Csd) : Statement (.csd register) := by
  intro _
  simp [bits, encode, Instr.context]

theorem seek (sector : BitVec 32) : Statement (.seek sector) := fun _ => rfl
theorem read : Statement .read := fun _ => rfl
theorem write (payload : Block) : Statement (.write payload) := fun _ => rfl
theorem blocksize : Statement .blocksize := fun _ => rfl
theorem blockcount : Statement .blockcount := fun _ => rfl
theorem init : Statement .init := fun _ => rfl

end Sys2Proof.Laws.TableWidth
end

