-- ==== Sys2Proof/Laws/Procedures.lean ====
section
/-! SUPPORT. Running one procedure to its end, and how an operation is made of procedures. -/

namespace Sys2Proof.Machine

/-! ## A procedure ends -/

@[simp] theorem procedureTick_dev (length : Nat) (s : State) :
    (procedureTick length s).dev = s.dev := by simp [procedureTick]
@[simp] theorem procedureTick_csd (length : Nat) (s : State) :
    (procedureTick length s).csd = s.csd := by simp [procedureTick]
@[simp] theorem procedureTick_frame (length : Nat) (s : State) :
    (procedureTick length s).frame = s.frame := by simp [procedureTick]
@[simp] theorem procedureTick_top (length : Nat) (s : State) :
    (procedureTick length s).phase.top = s.phase.top := by simp [procedureTick]
@[simp] theorem procedureTick_acmd (length : Nat) (s : State) :
    (procedureTick length s).phase.acmd = s.phase.acmd := by simp [procedureTick]
@[simp] theorem procedureTick_it (length : Nat) (s : State) :
    (procedureTick length s).it = s.it := by simp [procedureTick]
@[simp] theorem procedureTick_params (length : Nat) (s : State) :
    (procedureTick length s).params = s.params := by simp [procedureTick]
@[simp] theorem procedureTick_txData (length : Nat) (s : State) :
    (procedureTick length s).txData = s.txData := by simp [procedureTick]
@[simp] theorem procedureTick_stalled (length : Nat) (s : State) :
    (procedureTick length s).stalled = s.stalled := by simp [procedureTick]
@[simp] theorem procedureTick_request (length : Nat) (s : State) :
    (procedureTick length s).request = s.request := by simp [procedureTick]
@[simp] theorem procedureTick_script (length : Nat) (s : State) :
    (procedureTick length s).script = s.script := by simp [procedureTick]
@[simp] theorem procedureTick_responses (length : Nat) (s : State) :
    (procedureTick length s).responses = s.responses := by simp [procedureTick]

theorem procedureTick_history (length : Nat) (s : State) :
    (procedureTick length s).history = s.history ++ [(outByte s, cardByte s)] := by
  simp [procedureTick, exchange_history]

theorem procedureLeft_tick (length : Nat) {s : State} (h : s.phase.sub ≠ .none) :
    procedureLeft length (procedureTick length s) + 1 ≤ procedureLeft length s :=
  procedureLeft_exchange length (cardByte s) (cardMoves s) h

theorem procedureLeft_zero (length : Nat) {s : State} (h : procedureLeft length s = 0) :
    s.phase.sub = .none := by
  by_contra hs
  have := procedureLeft_pos length s hs
  omega

theorem procedureSteps_ended (length fuel : Nat) {s : State} (h : s.phase.sub = .none) :
    procedureSteps length fuel s = s := by
  cases fuel <;> simp [procedureSteps, h]

/-- Any two amounts of fuel that reach the procedure's bound give the same run. -/
theorem procedureSteps_enough (length a : Nat) :
    ∀ (b : Nat) (s : State), procedureLeft length s ≤ a → procedureLeft length s ≤ b →
      procedureSteps length a s = procedureSteps length b s := by
  induction a with
  | zero =>
    intro b s h _
    have hb := procedureLeft_zero length (s := s) (by omega)
    rw [procedureSteps_ended _ _ hb, procedureSteps_ended _ _ hb]
  | succ a ih =>
    intro b s h h'
    by_cases hb : s.phase.sub = .none
    · rw [procedureSteps_ended _ _ hb, procedureSteps_ended _ _ hb]
    · have hlt := procedureLeft_tick length hb
      obtain ⟨b, rfl⟩ : ∃ c, b = c + 1 := ⟨b - 1, by omega⟩
      simp only [procedureSteps, hb, if_false]
      exact ih b _ (by omega) (by omega)

theorem finishProcedure_ended (length : Nat) {s : State} (h : s.phase.sub = .none) :
    finishProcedure length s = s := procedureSteps_ended _ _ h

theorem finishProcedure_tick (length : Nat) {s : State} (h : s.phase.sub ≠ .none) :
    finishProcedure length s = finishProcedure length (procedureTick length s) := by
  have hlt := procedureLeft_tick length h
  obtain ⟨m, hm⟩ : ∃ m, procedureLeft length s = m + 1 := ⟨procedureLeft length s - 1, by omega⟩
  have : finishProcedure length s = procedureSteps length m (procedureTick length s) := by
    simp [finishProcedure, hm, procedureSteps, h]
  rw [this]
  exact procedureSteps_enough _ _ _ _ (by omega) (by omega)

/-- To show something of where a procedure ends: it holds where it has ended, and an exchange hands it
back. -/
theorem finishProcedure_induction (length : Nat) {P : State → State → Prop}
    (ended : ∀ s, s.phase.sub = .none → P s s)
    (step : ∀ s t, s.phase.sub ≠ .none → P (procedureTick length s) t → P s t) (s : State) :
    P s (finishProcedure length s) := by
  suffices h : ∀ m s, procedureLeft length s ≤ m → P s (finishProcedure length s) from h _ s le_rfl
  intro m
  induction m with
  | zero =>
    intro s h
    have hb := procedureLeft_zero length (s := s) (by omega)
    rw [finishProcedure_ended _ hb]; exact ended s hb
  | succ m ih =>
    intro s h
    by_cases hb : s.phase.sub = .none
    · rw [finishProcedure_ended _ hb]; exact ended s hb
    · rw [finishProcedure_tick _ hb]
      exact step s _ hb (ih _ (by have := procedureLeft_tick length hb; omega))

/-- Every procedure ends (R104). -/
@[simp] theorem finishProcedure_sub (length : Nat) (s : State) :
    (finishProcedure length s).phase.sub = .none :=
  finishProcedure_induction length (P := fun _ t => t.phase.sub = .none) (fun _ h => h)
    (fun _ _ _ h => h) s

/-- The parts of the state that no procedure touches. -/
structure ProcedureFrame (s t : State) : Prop where
  dev : t.dev = s.dev
  csd : t.csd = s.csd
  frame : t.frame = s.frame
  top : t.phase.top = s.phase.top
  acmd : t.phase.acmd = s.phase.acmd
  it : t.it = s.it
  params : t.params = s.params
  txData : t.txData = s.txData
  stalled : t.stalled = s.stalled
  request : t.request = s.request
  script : t.script = s.script
  responses : t.responses = s.responses

theorem ProcedureFrame.refl (s : State) : ProcedureFrame s s := by constructor <;> rfl

theorem ProcedureFrame.trans {s t u : State} (h : ProcedureFrame s t) (g : ProcedureFrame t u) :
    ProcedureFrame s u :=
  ⟨g.dev.trans h.dev, g.csd.trans h.csd, g.frame.trans h.frame, g.top.trans h.top,
    g.acmd.trans h.acmd, g.it.trans h.it, g.params.trans h.params, g.txData.trans h.txData,
    g.stalled.trans h.stalled, g.request.trans h.request, g.script.trans h.script,
    g.responses.trans h.responses⟩

theorem procedureTick_procedureFrame (length : Nat) (s : State) :
    ProcedureFrame s (procedureTick length s) := by constructor <;> simp

theorem procedureSteps_frame (length fuel : Nat) :
    ∀ s, ProcedureFrame s (procedureSteps length fuel s) := by
  induction fuel with
  | zero => exact ProcedureFrame.refl
  | succ fuel ih =>
    intro s
    simp only [procedureSteps]
    split
    · exact ProcedureFrame.refl s
    · exact (procedureTick_procedureFrame length s).trans (ih _)

theorem finishProcedure_frame (length : Nat) (s : State) :
    ProcedureFrame s (finishProcedure length s) := procedureSteps_frame _ _ s

/-- A procedure adds to the history, at most what `procedureLeft` allows. -/
theorem finishProcedure_history (length : Nat) (s : State) :
    ∃ added, (finishProcedure length s).history = s.history ++ added ∧
      added.length ≤ procedureLeft length s := by
  refine finishProcedure_induction length
    (P := fun s t => ∃ added, t.history = s.history ++ added ∧
      added.length ≤ procedureLeft length s)
    (fun s _ => ⟨[], by simp⟩) (fun s t h ⟨added, ha, hl⟩ => ?_) s
  refine ⟨(outByte s, cardByte s) :: added, ?_, ?_⟩
  · rw [ha, procedureTick_history]; simp
  · have := procedureLeft_tick length h
    simp only [List.length_cons]; omega

/-! ## The sequencer runs a procedure and then its caller -/

/-- A procedure belongs to the same caller at each of its control points. -/
theorem returnFrom_react (length : Nat) (i : Byte) (s : State)
    (h : (react length i s).phase.sub ≠ .none) :
    returnFrom (react length i s).phase.sub = returnFrom s.phase.sub := by
  revert h
  unfold react
  split <;> rename_i hs
  case h_1 => simp
  all_goals
    simp only [reactReady, reactFrame, reactR1, reactReply, reactToken, reactPayload, reactRxCrc,
      reactTxToken, reactTxPayload, reactTxCrc, reactResponse, reactBusy, pollStep, runStep]
    (repeat' split) <;> simp [hs] <;> rfl

/-- The frame is latched with the first exchange of a command only. -/
theorem latchFrame_react (length : Nat) (i : Byte) (s : State) (h : s.phase.sub ≠ .none) :
    latchFrame (react length i s) = react length i s := by
  unfold latchFrame
  rw [if_neg]
  unfold react
  split <;> rename_i hs
  case h_1 => exact absurd hs h
  all_goals
    simp only [reactReady, reactFrame, reactR1, reactReply, reactToken, reactPayload, reactRxCrc,
      reactTxToken, reactTxPayload, reactTxCrc, reactResponse, reactBusy, pollStep, runStep]
    (repeat' split) <;> simp [hs]

/-- A busy engine in a procedure whose frame needs no latching runs the procedure to its end, and then
its caller. -/
theorem finish_procedure (s : State) :
    busy s = true → s.phase.sub ≠ .none → latchFrame s = s →
      finish s = finish (returnFrom s.phase.sub (finishProcedure (rxLength s.phase.top) s)) := by
  suffices h : ∀ m (s : State), procedureLeft (rxLength s.phase.top) s ≤ m → busy s = true →
      s.phase.sub ≠ .none → latchFrame s = s →
      finish s = finish (returnFrom s.phase.sub (finishProcedure (rxLength s.phase.top) s)) from
    h _ s le_rfl
  intro m
  induction m with
  | zero =>
    intro s h _ hs
    have := procedureLeft_pos (rxLength s.phase.top) s hs
    omega
  | succ m ih =>
    intro s h hb hs hl
    have hl' : latchFrame (cardMoves s) = cardMoves s := by
      have := congrArg cardMoves hl
      rw [← this]
      unfold latchFrame
      (repeat' split) <;> simp_all [cardMoves, commandOf, sectorArgument]
    have ht : tick s = if (procedureTick (rxLength s.phase.top) s).phase.sub = .none then
        returnFrom s.phase.sub (procedureTick (rxLength s.phase.top) s)
        else procedureTick (rxLength s.phase.top) s := by
      rw [tick_busy hb, engineStep_busy _ (by simpa using hb), hl']
      rfl
    rw [finish_tick hb, ht, finishProcedure_tick _ hs]
    split
    · rename_i he
      rw [finishProcedure_ended _ he]
    · rename_i he
      have hlt := procedureLeft_tick (rxLength s.phase.top) hs
      have := ih (procedureTick (rxLength s.phase.top) s) (by simp; omega)
        (by simpa [busy] using hb) he
        (latchFrame_react _ _ (record (outByte (cardMoves s)) (cardByte s) (cardMoves s)) hs)
      rw [this, procedureTick_top]
      congr 1
      exact congrFun (returnFrom_react (rxLength s.phase.top) (cardByte s)
        (record (outByte (cardMoves s)) (cardByte s) (cardMoves s)) he) _

/-! ## What the procedures leave alone -/

theorem procedureTick_reactsTo (length : Nat) {s : State} (h : s.phase.sub ≠ .none) :
    ReactsTo length (cardByte s) (record (outByte (cardMoves s)) (cardByte s) (cardMoves s))
      (procedureTick length s) :=
  react_reactsTo length (cardByte s) (record (outByte (cardMoves s)) (cardByte s) (cardMoves s)) h

/-- A procedure that is no command leaves `r1`. -/
theorem finishProcedure_r1 (length : Nat) (s : State) (h : s.phase.sub.inCommand = false) :
    (finishProcedure length s).r1 = s.r1 := by
  revert h
  refine finishProcedure_induction length (P := fun s t => s.phase.sub.inCommand = false → t.r1 = s.r1)
    (fun s _ _ => rfl) ?_ s
  intro s t hn ih h
  have hr := procedureTick_reactsTo length hn
  have h1 : (procedureTick length s).r1 = s.r1 ∧ (procedureTick length s).phase.sub.inCommand = false := by
    generalize procedureTick length s = v at hr
    cases hr <;> simp_all [record, cardMoves, SubPhase.inCommand]
  rw [ih h1.2, h1.1]

/-- A command leaves the reply latch, the payload latch and the framer's result. -/
theorem finishProcedure_command (length : Nat) (s : State) (h : s.phase.sub.inCommand = true) :
    (finishProcedure length s).r7 = s.r7 ∧ (finishProcedure length s).rxData = s.rxData ∧
      (finishProcedure length s).framerResult = s.framerResult := by
  refine finishProcedure_induction length (P := fun s t =>
    s.phase.sub = .none ∨ s.phase.sub.inCommand = true →
      t.r7 = s.r7 ∧ t.rxData = s.rxData ∧ t.framerResult = s.framerResult)
    (fun s _ _ => ⟨rfl, rfl, rfl⟩) ?_ s (.inr h)
  intro s t hn ih h
  have hr := procedureTick_reactsTo length hn
  have hc := h.resolve_left hn
  have h1 : (procedureTick length s).r7 = s.r7 ∧ (procedureTick length s).rxData = s.rxData ∧
      (procedureTick length s).framerResult = s.framerResult ∧
      ((procedureTick length s).phase.sub = .none ∨ (procedureTick length s).phase.sub.inCommand = true) := by
    generalize procedureTick length s = v at hr
    cases hr <;> simp_all [record, cardMoves, SubPhase.inCommand]
  obtain ⟨a, b, c⟩ := ih h1.2.2.2
  exact ⟨a.trans h1.1, b.trans h1.2.1, c.trans h1.2.2.1⟩

@[simp] theorem sendCommand_sub (c : Command) (s : State) : (sendCommand c s).phase.sub = .none :=
  finishProcedure_sub _ _

/-- What a command leaves alone, the frame latch apart. -/
theorem sendCommand_procedureFrame (c : Command) (s : State) :
    ProcedureFrame { startRun .cmdReady (startPoll .cmdReady s) with frame := c.frame } (sendCommand c s) :=
  finishProcedure_frame _ _

theorem sendCommand_latches (c : Command) (s : State) :
    (sendCommand c s).r7 = s.r7 ∧ (sendCommand c s).rxData = s.rxData ∧
      (sendCommand c s).framerResult = s.framerResult :=
  finishProcedure_command _ _ rfl

end Sys2Proof.Machine
end

