-- ==== Sys2Proof/Laws/Runs.lean ====
section
/-! SUPPORT. Operations as the procedures of their pseudocode, and what a procedure does against a card that
answers given bytes. -/

namespace Sys2Proof.Machine

/-! ## Operations as procedures -/

theorem finish_congr {s t : State} (hs : busy s = true) (ht : busy t = true) (h : tick s = tick t) :
    finish s = finish t := by rw [finish_tick hs, finish_tick ht, h]

/-- In a command the payload length plays no part. -/
theorem react_inCommand (length length' : Nat) (i : Byte) (s : State)
    (h : s.phase.sub.inCommand = true) : react length i s = react length' i s := by
  unfold react
  split <;> rename_i hs <;> first | rfl | simp [hs, SubPhase.inCommand] at h

theorem procedureLeft_inCommand (length length' : Nat) (s : State)
    (h : s.phase.sub.inCommand = true) : procedureLeft length s = procedureLeft length' s := by
  unfold procedureLeft
  split <;> rename_i hs <;> first | rfl | simp [hs, SubPhase.inCommand] at h

theorem finishProcedure_inCommand (length length' : Nat) (s : State)
    (h : s.phase.sub.inCommand = true) :
    finishProcedure length s = finishProcedure length' s := by
  have key : ∀ fuel (s : State), s.phase.sub.inCommand = true ∨ s.phase.sub = .none →
      procedureSteps length fuel s = procedureSteps length' fuel s := by
    intro fuel
    induction fuel with
    | zero => intro s _; rfl
    | succ fuel ih =>
      intro s hs
      simp only [procedureSteps]
      split
      · rfl
      · rename_i hn
        have hc : s.phase.sub.inCommand = true := hs.resolve_right hn
        have he : procedureTick length s = procedureTick length' s :=
          react_inCommand _ _ _ (record (outByte (cardMoves s)) (cardByte s) (cardMoves s)) hc
        rw [he]
        refine ih _ ?_
        by_cases hx : (procedureTick length' s).phase.sub = .none
        · exact .inr hx
        · exact .inl ((react_sub length' (cardByte s)
            (record (outByte (cardMoves s)) (cardByte s) (cardMoves s)) hx).1.trans hc)
  unfold finishProcedure
  rw [procedureLeft_inCommand length length' s h]
  exact key _ _ (.inl h)

/-- A command that begins is `sendCommand`, and then its caller. -/
theorem finish_startCommand (top : TopPhase) (acmd : Bool) (s : State) (c : Command)
    (htop : top ≠ .idle) (hc : commandOf (startCommand top acmd s) = some c) :
    finish (startCommand top acmd s) =
      finish (afterCommand (sendCommand c (startCommand top acmd s))) := by
  have hl : latchFrame (startCommand top acmd s)
      = { startCommand top acmd s with frame := c.frame } := by
    unfold latchFrame
    rw [if_pos ⟨rfl, rfl⟩, hc]
  have hb : busy (startCommand top acmd s) = true := by simpa [busy] using htop
  have hb' : busy { startCommand top acmd s with frame := c.frame } = true := hb
  have hl' : latchFrame { startCommand top acmd s with frame := c.frame }
      = { startCommand top acmd s with frame := c.frame } := by
    unfold latchFrame
    have : commandOf { startCommand top acmd s with frame := c.frame } = some c := hc
    rw [if_pos ⟨rfl, rfl⟩, this]
  have h1 : finish (startCommand top acmd s)
      = finish { startCommand top acmd s with frame := c.frame } := by
    refine finish_congr hb hb' ?_
    have e1 : latchFrame (cardMoves (startCommand top acmd s))
        = cardMoves { startCommand top acmd s with frame := c.frame } := by
      unfold latchFrame
      rw [if_pos ⟨rfl, rfl⟩]
      have : commandOf (cardMoves (startCommand top acmd s)) = some c := hc
      rw [this]; rfl
    have e2 : latchFrame (cardMoves { startCommand top acmd s with frame := c.frame })
        = cardMoves { startCommand top acmd s with frame := c.frame } := by
      unfold latchFrame
      rw [if_pos ⟨rfl, rfl⟩]
      have : commandOf (cardMoves { startCommand top acmd s with frame := c.frame }) = some c := hc
      rw [this]; rfl
    rw [tick_busy hb, tick_busy hb', engineStep_busy _ (by simpa using hb),
      engineStep_busy _ (by simpa using hb'), e1, e2]
    rfl
  rw [h1, finish_procedure _ hb' (by simp) hl']
  have : finishProcedure (rxLength top) { startCommand top acmd s with frame := c.frame }
      = sendCommand c (startCommand top acmd s) :=
    finishProcedure_inCommand _ _ _ rfl
  exact congrArg (fun t => finish (afterCommand t)) this

/-- An operation that begins to receive is `Receive`, and then its caller. -/
theorem finish_startReceive (s : State) (hb : busy s = true) :
    finish (startReceive s) = finish (afterReceive (receive (rxLength s.phase.top) s)) :=
  finish_procedure (startReceive s) (by simpa [busy] using hb) (by simp) (by simp [latchFrame])

/-- An operation that begins to transmit is `Transmit`, and then its caller. -/
theorem finish_startTransmit (s : State) (hb : busy s = true) (hs : s.phase.top = .opWrite) :
    finish (goto .txToken s) = finish (afterTransmit (transmit s)) := by
  have h := finish_procedure (goto .txToken s) (by simpa [busy] using hb) (by simp)
    (by simp [latchFrame])
  simp only [goto_phase_top, goto_phase_sub, hs, rxLength] at h
  exact h

/-- VoltageCheck reading its reply is `readReply`, and then the check. -/
theorem finish_startReply (s : State) (hs : s.phase.top = .initVoltage) :
    finish (startRun .r7Bytes s) = finish (afterReply (readReply s)) := by
  have h := finish_procedure (startRun .r7Bytes s) (by simp [busy, hs]) (by simp)
    (by simp [latchFrame])
  simp only [startRun_phase_top, startRun_phase_sub, hs, rxLength] at h
  rw [h]
  have : (readReply s).phase.top = .initVoltage := by
    rw [readReply, (finishProcedure_frame _ _).top]; simp [hs]
  simp only [returnFrom, afterReplyBytes]
  rw [← readReply, this]

theorem finish_respond (r : Response) (s : State) : finish (respond r s) = respond r s :=
  finish_idle rfl

theorem finish_fail (e : ErrorKind) (s : State) : finish (fail e s) = fail e s := finish_idle rfl

theorem finish_doneInit (r : InitResult) (s : State) : finish (doneInit r s) = doneInit r s :=
  finish_idle rfl

/-! ## Against given answers -/

theorem procedureTick_oracle (length : Nat) {s : State} {b : Byte} {rest : List Byte}
    (h : s.card = .oracle (b :: rest)) :
    procedureTick length s = exchange length b { s with card := .oracle rest } := by
  have h1 : cardByte s = b := by simp [cardByte, h, Card.answer]
  have h2 : cardMoves s = { s with card := .oracle rest } := by simp [cardMoves, h, Card.answer]
  rw [procedureTick, h1, h2]

theorem finishProcedure_oracle (length : Nat) {s : State} {b : Byte} {rest : List Byte}
    (h : s.card = .oracle (b :: rest)) (hs : s.phase.sub ≠ .none) :
    finishProcedure length s =
      finishProcedure length (exchange length b { s with card := .oracle rest }) := by
  rw [finishProcedure_tick length hs, procedureTick_oracle length h]

/-- A poll that hits. -/
theorem finishProcedure_pollHit (length : Nat) (sub : SubPhase) (test : Byte → Bool)
    (onHit : Byte → State → State) (onExhausted : State → State) (hn : sub ≠ .none)
    (hr : ∀ i s, s.phase.sub = sub → react length i s = pollStep (test i) (onHit i) onExhausted s)
    (ho : ∀ s, s.phase.sub = sub → outByte s = Config.fill) (hit : Byte) (rest : List Byte)
    (hh : test hit = true) :
    ∀ (misses : List Byte) (s : State), s.phase.sub = sub →
      s.card = .oracle (misses ++ hit :: rest) → (∀ b ∈ misses, test b = false) →
      s.n + misses.length < s.params.retryBudget →
      finishProcedure length s = finishProcedure length (onHit hit
        { s with
          card := .oracle rest, n := s.n + (misses.length + 1)
          history := s.history ++ received (misses ++ [hit]) }) := by
  intro misses
  induction misses with
  | nil =>
    intro s hs hc _ _
    rw [finishProcedure_oracle length hc (by rw [hs]; exact hn)]
    simp only [exchange]
    rw [hr _ _ (by simpa using hs), ho _ (by simpa using hs)]
    simp [pollStep, hh, received, record]
  | cons b misses ih =>
    intro s hs hc hm hb
    simp only [List.length_cons] at hb
    rw [finishProcedure_oracle length (b := b) (rest := misses ++ hit :: rest) hc
      (by rw [hs]; exact hn)]
    simp only [exchange]
    rw [hr _ _ (by simpa using hs), ho _ (by simpa using hs)]
    have hbf : test b = false := hm b (by simp)
    have hpe : pollExhausted s.params s.n = false := by
      simp only [pollExhausted, decide_eq_false_iff_not]; omega
    simp only [pollStep, hbf, record, hpe, Bool.false_eq_true, if_false]
    rw [ih _ (by simpa using hs) rfl (fun x hx => hm x (by simp [hx])) (by simp; omega)]
    simp [received, List.append_assoc, Nat.add_assoc, Nat.add_comm]

/-- A poll that is exhausted. -/
theorem finishProcedure_pollMiss (length : Nat) (sub : SubPhase) (test : Byte → Bool)
    (onHit : Byte → State → State) (onExhausted : State → State) (hn : sub ≠ .none)
    (hr : ∀ i s, s.phase.sub = sub → react length i s = pollStep (test i) (onHit i) onExhausted s)
    (ho : ∀ s, s.phase.sub = sub → outByte s = Config.fill) (rest : List Byte) :
    ∀ (misses : List Byte) (s : State), s.phase.sub = sub →
      s.card = .oracle (misses ++ rest) → (∀ b ∈ misses, test b = false) →
      s.n + misses.length = s.params.retryBudget → misses ≠ [] →
      finishProcedure length s = finishProcedure length (onExhausted
        { s with
          card := .oracle rest, n := s.params.retryBudget
          history := s.history ++ received misses }) := by
  intro misses
  induction misses with
  | nil => intro s _ _ _ _ h; exact absurd rfl h
  | cons b misses ih =>
    intro s hs hc hm hb _
    simp only [List.length_cons] at hb
    rw [finishProcedure_oracle length (b := b) (rest := misses ++ rest) hc (by rw [hs]; exact hn)]
    simp only [exchange]
    rw [hr _ _ (by simpa using hs), ho _ (by simpa using hs)]
    have hbf : test b = false := hm b (by simp)
    by_cases hlast : misses = []
    · subst hlast
      have hpe : pollExhausted s.params s.n = true := by
        simp only [pollExhausted, decide_eq_true_eq]; simp at hb; omega
      simp only [pollStep, hbf, record, hpe, Bool.false_eq_true, if_false, if_true]
      simp at hb
      simp [received, ← hb]
    · have hlen : 1 ≤ misses.length := by
        rcases misses with _ | ⟨_, _⟩ <;> simp_all
      have hpe : pollExhausted s.params s.n = false := by
        simp only [pollExhausted, decide_eq_false_iff_not]; omega
      simp only [pollStep, hbf, record, hpe, Bool.false_eq_true, if_false]
      rw [ih _ (by simpa using hs) rfl (fun x hx => hm x (by simp [hx])) (by simp; omega) hlast]
      simp [received, List.append_assoc]

/-- A fixed-length run that keeps nothing of what it receives. -/
theorem finishProcedure_run (length : Nat) (sub : SubPhase) (total : Nat)
    (onComplete : State → State) (hn : sub ≠ .none)
    (hr : ∀ i s, s.phase.sub = sub → react length i s = runStep total onComplete s)
    (rest : List Byte) :
    ∀ (bytes : List Byte) (s : State), s.phase.sub = sub → s.card = .oracle (bytes ++ rest) →
      s.k + bytes.length = total → bytes ≠ [] →
      finishProcedure length s = finishProcedure length (onComplete
        { s with
          card := .oracle rest, k := total - 1
          history := s.history ++
            ((List.range' s.k bytes.length).map fun k => outByte { s with k := k }).zip bytes }) := by
  intro bytes
  induction bytes with
  | nil => intro s _ _ _ h; exact absurd rfl h
  | cons b bytes ih =>
    intro s hs hc hk _
    simp only [List.length_cons] at hk
    rw [finishProcedure_oracle length (b := b) (rest := bytes ++ rest) hc (by rw [hs]; exact hn)]
    simp only [exchange]
    rw [hr _ _ (by simpa using hs)]
    by_cases hlast : bytes = []
    · subst hlast
      have hpe : runComplete total s.k = true := by
        simp only [runComplete, decide_eq_true_eq]; simp at hk; omega
      have hk' : total - 1 = s.k := by simp at hk; omega
      simp only [runStep, record, hpe, if_true, hk']
      simp [outByte]
    · have hlen : 1 ≤ bytes.length := by
        rcases bytes with _ | ⟨_, _⟩ <;> simp_all
      have hpe : runComplete total s.k = false := by
        simp only [runComplete, decide_eq_false_iff_not]; omega
      simp only [runStep, record, hpe, Bool.false_eq_true, if_false]
      rw [ih _ (by simpa using hs) rfl (by simp; omega) hlast]
      simp [List.range'_succ, outByte, List.append_assoc]

/-- The payload of an inbound block. -/
theorem finishProcedure_payload (length : Nat) (rest : List Byte) :
    ∀ (bytes : List Byte) (s : State), s.phase.sub = .rxPayload →
      s.card = .oracle (bytes ++ rest) → s.k + bytes.length = length → bytes ≠ [] →
      finishProcedure length s = finishProcedure length (startRun .rxCrc
        { s with
          card := .oracle rest, k := length - 1, rxData := s.rxData ++ bytes
          history := s.history ++ received bytes }) := by
  intro bytes
  induction bytes with
  | nil => intro s _ _ _ h; exact absurd rfl h
  | cons b bytes ih =>
    intro s hs hc hk _
    simp only [List.length_cons] at hk
    rw [finishProcedure_oracle length (b := b) (rest := bytes ++ rest) hc (by simp [hs])]
    simp only [exchange]
    have ho : outByte { s with card := Card.oracle (bytes ++ rest) } = Config.fill := by
      simp [outByte, hs]
    rw [ho]
    simp only [react, record, hs, reactPayload]
    by_cases hlast : bytes = []
    · subst hlast
      have hpe : runComplete length s.k = true := by
        simp only [runComplete, decide_eq_true_eq]; simp at hk; omega
      simp only [runStep, hpe, if_true]
      simp [received, startRun, goto]
    · have hlen : 1 ≤ bytes.length := by
        rcases bytes with _ | ⟨_, _⟩ <;> simp_all
      have hpe : runComplete length s.k = false := by
        simp only [runComplete, decide_eq_false_iff_not]; omega
      simp only [runStep, hpe, Bool.false_eq_true, if_false]
      rw [ih _ (by simpa using hs) rfl (by simp; omega) hlast]
      simp [received, List.append_assoc]

/-! ## The procedures against given answers -/

/-- Where `sendCommand` is after its ready poll and its frame (R110 to R112). -/
theorem sendCommand_frameSent (c : Command) (s : State) (ready frameIn rest : List Byte)
    (hc : s.card = .oracle (ready ++ (frameIn ++ rest))) (hb : 1 ≤ s.params.retryBudget)
    (hready : ReadyPoll s.params.retryBudget ready) (hframe : frameIn.length = 6) :
    sendCommand c s = finishProcedure blockBytes
      { s with
        phase := { s.phase with sub := .cmdR1 }, frame := c.frame, card := .oracle rest, n := 0, k := 5
        history := s.history ++ received ready ++ c.frame.toList.zip frameIn } := by
  have hr : ∀ i t, t.phase.sub = .cmdReady → react blockBytes i t =
      pollStep (isReady i) (startRun .cmdFrame) (startRun .cmdFrame) t := by
    intro i t h; simp [react, h, reactReady]
  have ho : ∀ t : State, t.phase.sub = .cmdReady → outByte t = Config.fill := by
    intro t h; simp [outByte, h]
  have hf : ∀ t : State, t.phase.sub = .cmdFrame → t.k = 0 → t.card = .oracle (frameIn ++ rest) →
      finishProcedure blockBytes t = finishProcedure blockBytes (startPoll .cmdR1
        { t with
          card := .oracle rest, k := 5
          history := t.history ++ t.frame.toList.zip frameIn }) := by
    intro t ht hk htc
    rw [finishProcedure_run blockBytes .cmdFrame 6 (startPoll .cmdR1) (by simp)
      (by intro i u h; simp [react, h, reactFrame]) rest frameIn t ht htc (by omega)
      (by rintro rfl; simp at hframe)]
    have : ((List.range' t.k frameIn.length).map fun k => outByte { t with k := k })
        = t.frame.toList := by
      apply List.ext_getElem
      · simp [hframe]
      · intro j h1 h2
        simp at h1 h2
        simp [outByte, ht, hk, Vector.getElem?_eq_getElem h2]
    rw [this]
  have hcard : (startRun .cmdReady (startPoll .cmdReady s)).card
      = .oracle (ready ++ (frameIn ++ rest)) := hc
  unfold sendCommand
  rcases hready with ⟨misses, hit, rfl, hm, hh, hl⟩ | ⟨hl, hm⟩
  · rw [finishProcedure_pollHit blockBytes .cmdReady isReady _ _ (by simp) hr ho hit
      (frameIn ++ rest) hh misses _ rfl (by simpa using hcard) hm
      (by simp at hl; simpa using hl)]
    rw [hf _ (by simp) (by simp) (by simp)]
    simp [startPoll, startRun, goto, List.append_assoc]
  · rw [finishProcedure_pollMiss blockBytes .cmdReady isReady
      (fun _ => startRun .cmdFrame) _ (by simp) hr ho
      (frameIn ++ rest) ready _ rfl (by simpa using hcard) hm
      (by simpa using hl) (by rintro rfl; simp at hl; omega)]
    rw [hf _ (by simp) (by simp) (by simp)]
    simp [startPoll, startRun, goto, List.append_assoc]

/-- `sendCommand` answered within the budget (R110, R114). -/
theorem sendCommand_answer (c : Command) (s : State) (ready frameIn misses rest : List Byte)
    (hit : Byte) (hc : s.card = .oracle (ready ++ (frameIn ++ (misses ++ hit :: rest))))
    (hb : 1 ≤ s.params.retryBudget) (hready : ReadyPoll s.params.retryBudget ready)
    (hframe : frameIn.length = 6) (hm : ∀ b ∈ misses, isR1 b = false) (hh : isR1 hit = true)
    (hl : misses.length < s.params.retryBudget) :
    sendCommand c s =
      { s with
        phase := { s.phase with sub := .none }, frame := c.frame, card := .oracle rest
        n := misses.length + 1, k := 5, r1 := .answer (hit.extractLsb' 0 7)
        history := s.history ++ received ready ++ c.frame.toList.zip frameIn ++
          received (misses ++ [hit]) } := by
  rw [sendCommand_frameSent c s ready frameIn _ hc hb hready hframe,
    finishProcedure_pollHit blockBytes .cmdR1 isR1 _ _ (by simp)
      (by intro i t h; simp only [react, h, reactR1]; rfl) (by intro t h; simp [outByte, h]) hit rest hh
      misses _ rfl rfl hm (by simpa using hl)]
  rw [finishProcedure_ended _ (by simp)]
  simp [endProcedure, goto]

/-- `sendCommand` without an answer (R110, R114). -/
theorem sendCommand_timeout (c : Command) (s : State) (ready frameIn misses rest : List Byte)
    (hc : s.card = .oracle (ready ++ (frameIn ++ (misses ++ rest))))
    (hb : 1 ≤ s.params.retryBudget) (hready : ReadyPoll s.params.retryBudget ready)
    (hframe : frameIn.length = 6) (hm : PollMiss s.params.retryBudget isR1 misses) :
    sendCommand c s =
      { s with
        phase := { s.phase with sub := .none }, frame := c.frame, card := .oracle rest
        n := s.params.retryBudget, k := 5, r1 := .timeout
        history := s.history ++ received ready ++ c.frame.toList.zip frameIn ++
          received misses } := by
  rw [sendCommand_frameSent c s ready frameIn _ hc hb hready hframe,
    finishProcedure_pollMiss blockBytes .cmdR1 isR1
      (fun i t => endProcedure { t with r1 := .answer (i.extractLsb' 0 7) })
      (fun t => endProcedure { t with r1 := .timeout }) (by simp)
      (by intro i t h; simp only [react, h, reactR1]) (by intro t h; simp [outByte, h]) rest
      misses _ rfl rfl hm.2 (by simpa using hm.1) (by rintro rfl; have := hm.1; simp at this; omega)]
  rw [finishProcedure_ended _ (by simp)]
  simp [endProcedure, goto]

/-- `Receive` when the token never comes (R151). -/
theorem receive_noToken (length : Nat) (s : State) (misses rest : List Byte)
    (hc : s.card = .oracle (misses ++ rest)) (hb : 1 ≤ s.params.retryBudget)
    (hm : PollMiss s.params.retryBudget isStartToken misses) :
    receive length s =
      { s with
        phase := { s.phase with sub := .none }, card := .oracle rest
        n := s.params.retryBudget, framerResult := .io
        history := s.history ++ received misses } := by
  unfold receive
  rw [finishProcedure_pollMiss length .rxToken isStartToken (fun _ => startPayload)
      (endFramer .io) (by simp)
      (by intro i t h; simp only [react, h, reactToken]) (by intro t h; simp [outByte, h]) rest
      misses _ rfl (by simpa using hc) hm.2 (by simpa using hm.1)
      (by rintro rfl; have := hm.1; simp at this; omega)]
  rw [finishProcedure_ended _ (by simp)]
  simp [endFramer, endProcedure, goto, startReceive, startPoll]

/-- `Receive` of a whole block (R150 to R153). -/
theorem receive_block (length : Nat) (s : State) (gap payload rest : List Byte) (c0 c1 : Byte)
    (hc : s.card = .oracle (gap ++ Config.startToken :: (payload ++ c0 :: c1 :: rest)))
    (hg : ∀ b ∈ gap, isStartToken b = false) (hl : gap.length < s.params.retryBudget)
    (hp : payload.length = length) (hne : payload ≠ []) :
    receive length s =
      { s with
        phase := { s.phase with sub := .none }, card := .oracle rest
        n := gap.length + 1, k := 1, rxData := payload, framerResult := .ok
        history := s.history ++ received (gap ++ [Config.startToken]) ++ received payload ++
          received [c0, c1] } := by
  unfold receive
  rw [finishProcedure_pollHit length .rxToken isStartToken (fun _ => startPayload)
      (endFramer .io) (by simp)
      (by intro i t h; simp only [react, h, reactToken]) (by intro t h; simp [outByte, h])
      Config.startToken (payload ++ c0 :: c1 :: rest) (by simp [isStartToken])
      gap _ rfl (by simpa using hc) hg (by simpa using hl)]
  rw [finishProcedure_payload length (c0 :: c1 :: rest) payload _ rfl rfl (by simpa using hp) hne]
  rw [finishProcedure_run length .rxCrc 2 (endFramer .ok) (by simp)
      (by intro i u h; simp [react, h, reactRxCrc]) rest [c0, c1] _ rfl rfl (by simp) (by simp)]
  rw [finishProcedure_ended _ (by simp)]
  simp [endFramer, endProcedure, goto, startReceive, startPayload, startPoll, startRun, received, outByte,
    List.range'_succ, List.append_assoc]

/-- `Transmit` up to the data-response byte (R154). -/
theorem transmit_blockSent (s : State) (payload : Block) (hp : s.txData = some payload)
    (t0 f0 f1 : Byte) (dataIn rest : List Byte)
    (hc : s.card = .oracle (t0 :: (dataIn ++ f0 :: f1 :: rest))) (hd : dataIn.length = blockBytes) :
    transmit s = finishProcedure blockBytes
      { s with
        phase := { s.phase with sub := .txResp }, card := .oracle rest, k := 1
        history := s.history ++ [(Config.startToken, t0)] ++ payload.val.zip dataIn ++
          [(Config.crcFiller, f0), (Config.crcFiller, f1)] } := by
  unfold transmit
  rw [finishProcedure_oracle blockBytes (b := t0) (rest := dataIn ++ f0 :: f1 :: rest) (by simpa using hc)
    (by simp)]
  have h1 : exchange blockBytes t0 { goto .txToken s with card := .oracle (dataIn ++ f0 :: f1 :: rest) }
      = startRun .txPayload
        { s with
          card := .oracle (dataIn ++ f0 :: f1 :: rest)
          history := s.history ++ [(Config.startToken, t0)] } := by
    simp [exchange, react, reactTxToken, record, outByte, goto, startRun]
  rw [h1]
  rw [finishProcedure_run blockBytes .txPayload blockBytes (startRun .txCrc) (by simp)
      (by intro i u h; simp [react, h, reactTxPayload]) (f0 :: f1 :: rest) dataIn _ rfl rfl
      (by simpa using hd) (by rintro rfl; simp [blockBytes] at hd)]
  rw [finishProcedure_run blockBytes .txCrc 2 (goto .txResp) (by simp)
      (by intro i u h; simp [react, h, reactTxCrc]) rest [f0, f1] _ rfl rfl (by simp) (by simp)]
  have h2 : ((List.range' 0 dataIn.length).map fun k => payload.val.getD k Config.fill)
      = payload.val := by
    apply List.ext_getElem
    · simp [hd, payload.property]
    · intro j h1 h2
      simp [List.getElem?_eq_getElem h2]
  simp [startRun, goto, outByte, payloadBytes, hp, List.range'_succ, List.append_assoc] at h2 ⊢
  rw [h2]

/-- `Transmit` of a block that is not accepted (R155). -/
theorem transmit_rejected (s : State) (payload : Block) (hp : s.txData = some payload)
    (t0 f0 f1 d : Byte) (dataIn rest : List Byte)
    (hc : s.card = .oracle (t0 :: (dataIn ++ f0 :: f1 :: d :: rest)))
    (hd : dataIn.length = blockBytes) (hr : isAccepting d = false) :
    transmit s =
      { s with
        phase := { s.phase with sub := .none }, card := .oracle rest, k := 1, framerResult := .io
        history := s.history ++ [(Config.startToken, t0)] ++ payload.val.zip dataIn ++
          [(Config.crcFiller, f0), (Config.crcFiller, f1)] ++ received [d] } := by
  rw [transmit_blockSent s payload hp t0 f0 f1 dataIn (d :: rest) hc hd]
  rw [finishProcedure_oracle blockBytes (b := d) (rest := rest) rfl (by simp)]
  have : ∀ u : State, u.phase.sub = .txResp →
      exchange blockBytes d u = endFramer .io (record Config.fill d u) := by
    intro u hu; simp [exchange, react, hu, reactResponse, hr, outByte]
  rw [this _ rfl, finishProcedure_ended _ (by simp)]
  simp [endFramer, endProcedure, goto, record, received]

/-- `Transmit` of an accepted block, up to the busy poll (R155, R156). -/
theorem transmit_accepted (s : State) (payload : Block) (hp : s.txData = some payload)
    (t0 f0 f1 d : Byte) (dataIn rest : List Byte)
    (hc : s.card = .oracle (t0 :: (dataIn ++ f0 :: f1 :: d :: rest)))
    (hd : dataIn.length = blockBytes) (hr : isAccepting d = true) :
    transmit s = finishProcedure blockBytes
      { s with
        phase := { s.phase with sub := .txBusy }, card := .oracle rest, n := 0, k := 1
        history := s.history ++ [(Config.startToken, t0)] ++ payload.val.zip dataIn ++
          [(Config.crcFiller, f0), (Config.crcFiller, f1)] ++ received [d] } := by
  rw [transmit_blockSent s payload hp t0 f0 f1 dataIn (d :: rest) hc hd]
  rw [finishProcedure_oracle blockBytes (b := d) (rest := rest) rfl (by simp)]
  have : ∀ u : State, u.phase.sub = .txResp →
      exchange blockBytes d u = startPoll .txBusy (record Config.fill d u) := by
    intro u hu; simp [exchange, react, hu, reactResponse, hr, outByte]
  rw [this _ rfl]
  simp [startPoll, goto, record, received]

/-- `Transmit` of an accepted block that the card releases in time (R156). -/
theorem transmit_released (s : State) (payload : Block) (hp : s.txData = some payload)
    (t0 f0 f1 d hit : Byte) (dataIn busyBytes rest : List Byte)
    (hc : s.card = .oracle (t0 :: (dataIn ++ f0 :: f1 :: d :: (busyBytes ++ hit :: rest))))
    (hd : dataIn.length = blockBytes) (hr : isAccepting d = true)
    (hm : ∀ b ∈ busyBytes, isReady b = false) (hh : isReady hit = true)
    (hl : busyBytes.length < s.params.retryBudget) :
    transmit s =
      { s with
        phase := { s.phase with sub := .none }, card := .oracle rest, n := busyBytes.length + 1
        k := 1, framerResult := .ok
        history := s.history ++ [(Config.startToken, t0)] ++ payload.val.zip dataIn ++
          [(Config.crcFiller, f0), (Config.crcFiller, f1)] ++ received [d] ++
          received (busyBytes ++ [hit]) } := by
  rw [transmit_accepted s payload hp t0 f0 f1 d dataIn _ hc hd hr,
    finishProcedure_pollHit blockBytes .txBusy isReady (fun _ => endFramer .ok)
      (endFramer .io) (by simp)
      (by intro i t h; simp only [react, h, reactBusy]) (by intro t h; simp [outByte, h]) hit rest hh
      busyBytes _ rfl rfl hm (by simpa using hl)]
  rw [finishProcedure_ended _ (by simp)]
  simp [endFramer, endProcedure, goto]

/-- `Transmit` of an accepted block that the card holds too long (R156). -/
theorem transmit_busy (s : State) (payload : Block) (hp : s.txData = some payload)
    (t0 f0 f1 d : Byte) (dataIn busyBytes rest : List Byte)
    (hc : s.card = .oracle (t0 :: (dataIn ++ f0 :: f1 :: d :: (busyBytes ++ rest))))
    (hb : 1 ≤ s.params.retryBudget) (hd : dataIn.length = blockBytes) (hr : isAccepting d = true)
    (hm : PollMiss s.params.retryBudget isReady busyBytes) :
    transmit s =
      { s with
        phase := { s.phase with sub := .none }, card := .oracle rest, n := s.params.retryBudget
        k := 1, framerResult := .io
        history := s.history ++ [(Config.startToken, t0)] ++ payload.val.zip dataIn ++
          [(Config.crcFiller, f0), (Config.crcFiller, f1)] ++ received [d] ++
          received busyBytes } := by
  rw [transmit_accepted s payload hp t0 f0 f1 d dataIn _ hc hd hr,
    finishProcedure_pollMiss blockBytes .txBusy isReady (fun _ => endFramer .ok)
      (endFramer .io) (by simp)
      (by intro i t h; simp only [react, h, reactBusy]) (by intro t h; simp [outByte, h]) rest
      busyBytes _ rfl rfl hm.2 (by simpa using hm.1)
      (by rintro rfl; have := hm.1; simp at this; omega)]
  rw [finishProcedure_ended _ (by simp)]
  simp [endFramer, endProcedure, goto]

/-- The four reply bytes (R117). -/
theorem readReply_bytes (s : State) (b0 b1 b2 b3 : Byte) (rest : List Byte)
    (hc : s.card = .oracle (b0 :: b1 :: b2 :: b3 :: rest)) :
    readReply s =
      { s with
        phase := { s.phase with sub := .none }, card := .oracle rest, k := 3
        r7 := #v[b0, b1, b2, b3], history := s.history ++ received [b0, b1, b2, b3] } := by
  unfold readReply
  rw [finishProcedure_oracle blockBytes (b := b0) (rest := b1 :: b2 :: b3 :: rest)
      (by simpa using hc) (by simp),
    finishProcedure_oracle blockBytes (b := b1) (rest := b2 :: b3 :: rest)
      (by simp) (by simp [exchange, react, reactReply, runStep, runComplete]),
    finishProcedure_oracle blockBytes (b := b2) (rest := b3 :: rest)
      (by simp) (by simp [exchange, react, reactReply, runStep, runComplete]),
    finishProcedure_oracle blockBytes (b := b3) (rest := rest)
      (by simp) (by simp [exchange, react, reactReply, runStep, runComplete])]
  rw [finishProcedure_ended _ (by simp [exchange, react, reactReply, runStep, runComplete])]
  simp [exchange, react, reactReply, runStep, runComplete, record, outByte, received, startRun, goto,
    endProcedure]
  apply Array.ext
  · simp
  · intro j h1 h2
    have : j = 0 ∨ j = 1 ∨ j = 2 ∨ j = 3 := by simp at h2; omega
    rcases this with rfl | rfl | rfl | rfl <;> simp

end Sys2Proof.Machine
end

