-- ==== Sys2Proof/Laws/Step.lean ====
section
/-! SUPPORT. What one step of the machine can do, said once, and runs of several steps. -/

namespace Sys2Proof.Machine

/-! ## One step -/

theorem presented_eq_none_of_request {s : State} (h : s.request = none) : presented s = none := by
  simp [presented, h]

/-- A busy engine with nothing on the request lines makes one exchange (R7). -/
theorem step_busy {s : State} (hb : busy s = true) (hp : presented s = none)
    (hl : s.stalled = false) : step s = .next (tick s) := by
  simp [step, hp, hb, busyStep, afterExchanges, hl]

/-- A request word asks for one of the five host operations (R86). -/
theorem decodeRequest_host {r : HostRequest} {i : Instr} (h : decodeRequest r = .ok i) :
    i.context = .host := by
  unfold decodeRequest at h
  repeat' split at h
  all_goals first | cases h; rfl | cases h

/-- What accepting a request can do: nothing for code 0, or the acceptance of a host operation, with its
first exchange if it makes any. -/
theorem accept_next {r : HostRequest} {s t : State} (h : accept r s = .next t) :
    (t = s ∧ r.op = 0#3) ∨
      ∃ i, decodeRequest r = .ok i ∧ i.context = .host ∧
        ((busy (startRequest i s) = false ∧ t = startRequest i s) ∨
          (busy (startRequest i s) = true ∧ (startRequest i s).stalled = false ∧
            t = tick (startRequest i s))) := by
  unfold accept at h
  split at h
  · rename_i i hi
    refine .inr ⟨i, hi, decodeRequest_host hi, ?_⟩
    simp only [acceptStep, busyStep, afterExchanges] at h
    split at h
    · split at h
      · cases h
      · rename_i hb hs
        cases h
        exact .inr ⟨hb, by simpa using hs, rfl⟩
    · rename_i hb
      cases h
      exact .inl ⟨by simpa using hb, rfl⟩
  · rename_i he
    cases h
    refine .inl ⟨rfl, ?_⟩
    unfold decodeRequest at he
    repeat' split at he
    all_goals first | assumption | cases he
  · cases h

/-- What one step can do. -/
theorem step_cases {s t : State} (h : step s = .next t) :
    (busy s = true ∧ presented s = none ∧ s.stalled = false ∧ t = tick s) ∨
      (busy s = false ∧ ∃ u, (u = s ∨ u = { s with request := none } ∨
          ∃ r rest, s.script = r :: rest ∧ u = { s with script := rest }) ∧
        (t = u ∨ ∃ i, i.context = .host ∧
          ((busy (startRequest i u) = false ∧ t = startRequest i u) ∨
            (busy (startRequest i u) = true ∧ s.stalled = false ∧ t = tick (startRequest i u))))) := by
  have hstart : ∀ i (u : State), (startRequest i u).stalled = u.stalled := by
    intro i u
    cases i <;>
      simp only [startRequest, startSeek, startRead, startWrite, startBlockSize, startBlockCount] <;>
      (repeat' split) <;> rfl
  unfold step at h
  split at h
  · split at h
    · cases h
    · rename_i hb
      refine .inr ⟨by simpa using hb, { s with request := none }, .inr (.inl rfl), ?_⟩
      rcases accept_next h with ⟨rfl, -⟩ | ⟨i, -, hi, hc⟩
      · exact .inl rfl
      · rw [hstart] at hc
        exact .inr ⟨i, hi, hc⟩
  · rename_i hp
    split at h
    · rename_i hb
      unfold busyStep afterExchanges at h
      split at h
      · cases h
      · rename_i hs
        cases h
        exact .inl ⟨hb, hp, by simpa using hs, rfl⟩
    · rename_i hb
      refine .inr ⟨by simpa using hb, ?_⟩
      unfold idleStep at h
      split at h
      · cases h
        exact ⟨s, .inl rfl, .inl rfl⟩
      · rename_i r rest hs
        refine ⟨{ s with script := rest }, .inr (.inr ⟨r, rest, hs, rfl⟩), ?_⟩
        rcases accept_next h with ⟨rfl, -⟩ | ⟨i, -, hi, hc⟩
        · exact .inl rfl
        · rw [hstart] at hc
          exact .inr ⟨i, hi, hc⟩

/-! ## Several steps -/

theorem run_succ (steps : Nat) {s t : State} (h : step s = .next t) :
    Host.Core.run Sys2Proof.core (steps + 1) s = Host.Core.run Sys2Proof.core steps t := by
  have : Sys2Proof.core.step s = .next t := h
  simp only [Host.Core.run, this]

theorem Reaches.refl (s : State) : Reaches s s := ⟨0, rfl⟩

theorem Reaches.head {s t u : State} (h : step s = .next t) (g : Reaches t u) : Reaches s u := by
  obtain ⟨steps, g⟩ := g
  exact ⟨steps + 1, (run_succ steps h).trans g⟩

theorem Reaches.trans {s t u : State} (h : Reaches s t) (g : Reaches t u) : Reaches s u := by
  obtain ⟨steps, h⟩ := h
  induction steps generalizing s with
  | zero => cases h; exact g
  | succ steps ih =>
    simp only [Host.Core.run] at h
    split at h
    · rename_i v hv; exact Reaches.head hv (ih h)
    · cases h
    · cases h

/-- A busy engine with nothing on its lines makes its exchanges one after the other, for as long as it
is busy. -/
theorem run_runSteps (fuel : Nat) {s : State} (hr : s.request = none) (hl : s.stalled = false) :
    ∃ steps, steps ≤ fuel ∧ Host.Core.run Sys2Proof.core steps s = .next (runSteps fuel s) := by
  induction fuel generalizing s with
  | zero => exact ⟨0, Nat.le_refl _, rfl⟩
  | succ fuel ih =>
    cases hb : busy s
    · exact ⟨0, Nat.zero_le _, by rw [runSteps_idle _ hb]; rfl⟩
    · obtain ⟨steps, hs, h⟩ := ih (s := tick s) (by rw [tick_request, hr]) (by rw [tick_stalled, hl])
      refine ⟨steps + 1, Nat.succ_le_succ hs, ?_⟩
      rw [run_succ steps (step_busy hb (presented_eq_none_of_request hr) hl), h]
      simp [runSteps, hb]

/-- The run of the operation in progress reaches its end. -/
theorem reaches_finish {s : State} (hr : s.request = none) (hl : s.stalled = false) :
    Reaches s (finish s) := by
  obtain ⟨steps, -, h⟩ := run_runSteps (exchangesLeft s) hr hl
  exact ⟨steps, h⟩

/-! ## A procedure, step by step -/

theorem latchFrame_cardMoves {s : State} (hl : latchFrame s = s) :
    latchFrame (cardMoves s) = cardMoves s := by
  have := congrArg cardMoves hl
  rw [← this]
  unfold latchFrame
  (repeat' split) <;> simp_all [cardMoves, commandOf, sectorArgument]

/-- One engine step inside a procedure whose frame needs no latching. -/
theorem tick_procedure {s : State} (hb : busy s = true) (hl : latchFrame s = s) :
    tick s = if (procedureTick (rxLength s.phase.top) s).phase.sub = .none then
        returnFrom s.phase.sub (procedureTick (rxLength s.phase.top) s)
      else procedureTick (rxLength s.phase.top) s := by
  rw [tick_busy hb, engineStep_busy _ (by simpa using hb), latchFrame_cardMoves hl]
  rfl

/-- The steps from the first exchange of a procedure reach the state in which it has ended and its caller
has gone on. -/
theorem tick_reaches_procedure (s : State) :
    busy s = true → s.phase.sub ≠ .none → latchFrame s = s → s.request = none → s.stalled = false →
      Reaches (tick s) (returnFrom s.phase.sub (finishProcedure (rxLength s.phase.top) s)) := by
  suffices h : ∀ m (s : State), procedureLeft (rxLength s.phase.top) s ≤ m → busy s = true →
      s.phase.sub ≠ .none → latchFrame s = s → s.request = none → s.stalled = false →
      Reaches (tick s) (returnFrom s.phase.sub (finishProcedure (rxLength s.phase.top) s)) from
    h _ s le_rfl
  intro m
  induction m with
  | zero =>
    intro s h _ hs
    have := procedureLeft_pos (rxLength s.phase.top) s hs
    omega
  | succ m ih =>
    intro s h hb hs hl hr hst
    rw [tick_procedure hb hl, finishProcedure_tick _ hs]
    split
    · rename_i he
      rw [finishProcedure_ended _ he]
      exact Reaches.refl _
    · rename_i he
      have hlt := procedureLeft_tick (rxLength s.phase.top) hs
      have hb' : busy (procedureTick (rxLength s.phase.top) s) = true := by simpa [busy] using hb
      have hr' : (procedureTick (rxLength s.phase.top) s).request = none := by simpa using hr
      have hst' : (procedureTick (rxLength s.phase.top) s).stalled = false := by simpa using hst
      have := ih (procedureTick (rxLength s.phase.top) s) (by simp; omega) hb' he
        (latchFrame_react _ _ (record (outByte (cardMoves s)) (cardByte s) (cardMoves s)) hs) hr' hst'
      rw [procedureTick_top, show returnFrom (procedureTick (rxLength s.phase.top) s).phase.sub =
        returnFrom s.phase.sub from returnFrom_react (rxLength s.phase.top) (cardByte s)
        (record (outByte (cardMoves s)) (cardByte s) (cardMoves s)) he] at this
      exact Reaches.head (step_busy hb' (presented_eq_none_of_request hr') hst') this

theorem reaches_procedure (s : State) (hb : busy s = true) (hs : s.phase.sub ≠ .none)
    (hl : latchFrame s = s) (hr : s.request = none) (hst : s.stalled = false) :
    Reaches s (returnFrom s.phase.sub (finishProcedure (rxLength s.phase.top) s)) :=
  Reaches.head (step_busy hb (presented_eq_none_of_request hr) hst)
    (tick_reaches_procedure s hb hs hl hr hst)

/-- The byte index that a ready poll finds has no influence: the frame starts at byte 0. -/
theorem finishProcedure_ready_k (length k : Nat) (s : State) (h : s.phase.sub = .cmdReady) :
    finishProcedure length { s with k := k } = finishProcedure length s := by
  suffices H : ∀ m (s : State), procedureLeft length s ≤ m → s.phase.sub = .cmdReady →
      finishProcedure length { s with k := k } = finishProcedure length s from H _ s le_rfl h
  intro m
  induction m with
  | zero => intro s hm h; have := procedureLeft_pos length s (by simp [h]); omega
  | succ m ih =>
    intro s hm h
    have hlt := procedureLeft_tick length (s := s) (by simp [h])
    rw [finishProcedure_tick length (s := s) (by simp [h]),
      finishProcedure_tick length (s := { s with k := k }) (by simp [h])]
    rcases pollStep_cases (isReady (cardByte s)) (startRun .cmdFrame) (startRun .cmdFrame)
      (record (outByte s) (cardByte s) (cardMoves s)) with ⟨h1, -⟩ | ⟨h1, h2, -⟩ | ⟨h1, h2, -⟩
    · congr 1
      simp [procedureTick, exchange, react, h, reactReady, record, cardMoves, cardByte, outByte, startRun,
        goto, pollStep] at h1 ⊢
      simp [h1]
    · congr 1
      simp [procedureTick, exchange, react, h, reactReady, record, cardMoves, cardByte, outByte, startRun,
        goto, pollStep, pollExhausted] at h1 h2 ⊢
      simp [h1, h2]
    · have e : procedureTick length { s with k := k } = { procedureTick length s with k := k } := by
        simp [procedureTick, exchange, react, h, reactReady, record, cardMoves, cardByte, outByte, pollStep,
          pollExhausted] at h1 h2 ⊢
        simp [h1, Nat.not_le.mpr h2]
      have e2 : (procedureTick length s).phase.sub = .cmdReady := by
        simp [procedureTick, exchange, react, h, reactReady, record, cardMoves, cardByte, outByte, pollStep,
          pollExhausted] at h1 h2 ⊢
        simp [h1, Nat.not_le.mpr h2, h]
      rw [e]
      exact ih _ (by omega) e2

/-- The steps from the first exchange of a command reach the state in which `sendCommand` has returned and
its caller has gone on. -/
theorem reaches_command (c : Command) (s : State) (hb : busy s = true) (hsub : s.phase.sub = .cmdReady)
    (hn : s.n = 0) (hc : commandOf s = some c) (hr : s.request = none) (hst : s.stalled = false) :
    Reaches s (afterCommand (sendCommand c s)) := by
  have hb' : busy { s with frame := c.frame } = true := hb
  have hl' : latchFrame { s with frame := c.frame } = { s with frame := c.frame } := by
    unfold latchFrame
    have : commandOf { s with frame := c.frame } = some c := hc
    rw [if_pos ⟨hsub, hn⟩, this]
  have e : tick s = tick { s with frame := c.frame } := by
    have e1 : latchFrame (cardMoves s) = cardMoves { s with frame := c.frame } := by
      unfold latchFrame
      have : commandOf (cardMoves s) = some c := hc
      rw [if_pos ⟨hsub, hn⟩, this]
      simp [cardMoves, outByte, hsub]
    rw [tick_procedure hb' hl', tick_busy hb, engineStep_busy _ (by simpa using hb), e1]
    have : cardByte s = cardByte { s with frame := c.frame } := by simp [cardByte, outByte, hsub]
    rw [this]
    simp only [procedureTick]
    rfl
  have hp := tick_reaches_procedure { s with frame := c.frame } hb' (by simp [hsub]) hl' hr hst
  have e3 : finishProcedure (rxLength s.phase.top) { s with frame := c.frame } = sendCommand c s := by
    rw [finishProcedure_inCommand _ blockBytes _ (by simp [hsub, SubPhase.inCommand])]
    unfold sendCommand
    rw [← finishProcedure_ready_k blockBytes 0 { s with frame := c.frame } hsub]
    congr 1
    simp [startRun, startPoll, goto, hn, ← hsub]
  simp only [hsub, returnFrom] at hp
  rw [e3, ← e] at hp
  exact Reaches.head (step_busy hb (presented_eq_none_of_request hr) hst) hp

end Sys2Proof.Machine
end

