-- ==== Sys2Proof/Tests/Slice0.lean ====
section
/-! SUPPORT. Tests: the words of the spec's encodings, one-step checks with expected values taken from
95_test_vectors.md ("V<n>", "P<n>") or worked out by hand from the rule named, and for every statement with
hypotheses a witness that meets them. -/

namespace Sys2Proof.Tests

open Sys2Proof Sys2Proof.Machine

/-! ## Well-formed terms -/

/-- R84: a payload is 16 or 512 bytes; 17 is refused. -/
theorem test_wf_refuses_payload_of_17 :
    (Instr.rxblock (List.replicate 17 0x00#8) 0x00#8 0x00#8).wf = false := by decide

theorem test_wf_refuses_empty_payload : (Instr.rxblock [] 0x00#8 0x00#8).wf = false := by decide

theorem test_wf_accepts_payload_of_16 :
    (Instr.rxblock (List.replicate 16 0x00#8) 0x00#8 0x00#8).wf = true := by decide

/-! ## Decoding: words written out from 30_encoding.md -/

/-- The instruction a decoding gives, if any. -/
def read (c : Context) (bytes : List Byte) : Option Instr := decoded (decode c (.wire bytes))

/-- R82, V1: 01 000000, argument 0, 0x95. -/
theorem test_decode_cmd0 :
    read .command [0b01000000#8, 0x00#8, 0x00#8, 0x00#8, 0x00#8, 0b10010101#8] = some .cmd0 := by decide

/-- R82, V2: 01 001000, argument 0x000001A5, 0x69. -/
theorem test_decode_cmd8 :
    read .command [0b01001000#8, 0x00#8, 0x00#8, 0b00000001#8, 0b10100101#8, 0b01101001#8] = some .cmd8 := by
  decide

/-- R82: index 9 is 0b001001. -/
theorem test_decode_cmd9 :
    read .command [0b01001001#8, 0x00#8, 0x00#8, 0x00#8, 0x00#8, 0xFF#8] = some .cmd9 := by decide

/-- R53 (a): the argument is big-endian. -/
theorem test_decode_cmd17 :
    read .command [0b01010001#8, 0x00#8, 0x0F#8, 0x9F#8, 0xFE#8, 0xFF#8] = some (.cmd17 0x000F9FFE#32) := by
  decide

theorem test_decode_cmd24 :
    read .command [0b01011000#8, 0x12#8, 0x34#8, 0x56#8, 0x78#8, 0xFF#8] = some (.cmd24 0x12345678#32) := by
  decide

/-- R72: argument bit 30 is bit 6 of frame byte 1. -/
theorem test_decode_acmd41 :
    read .command [0b01101001#8, 0b01000000#8, 0x00#8, 0x00#8, 0x00#8, 0xFF#8] = some .acmd41 := by decide

theorem test_decode_cmd55 :
    read .command [0b01110111#8, 0x00#8, 0x00#8, 0x00#8, 0x00#8, 0xFF#8] = some .cmd55 := by decide

/-- R82: no other frame is one of the seven; here CMD0 with the wrong last byte and index 58. -/
theorem test_decode_refuses_other_frames :
    read .command [0x40#8, 0x00#8, 0x00#8, 0x00#8, 0x00#8, 0xFF#8] = none ∧
    read .command [0x7A#8, 0x00#8, 0x00#8, 0x00#8, 0x00#8, 0xFF#8] = none := by decide

/-- R74: bit 7 clear is a response, bit 7 set is "not yet". -/
theorem test_decode_r1 :
    read .status [0b01111111#8] = some (.r1 0b1111111#7) ∧ read .status [0b10000000#8] = none := by decide

theorem test_decode_r7 :
    read .reply [0x00#8, 0x00#8, 0x01#8, 0xA5#8] = some (.r7 0x00#8 0x00#8 0x01#8 0xA5#8) := by decide

theorem test_decode_start :
    read .token [0b11111110#8] = some .start ∧ read .token [0xFF#8] = none ∧ read .token [0xFC#8] = none := by
  decide

/-- R77: 0xE5 and 0x05 accept; 0x0D and 0x04 do not. -/
theorem test_decode_dresp_accept :
    read .dataResponse [0xE5#8] = some (.drespAccept 0b111#3) ∧
    read .dataResponse [0x05#8] = some (.drespAccept 0b000#3) ∧
    read .dataResponse [0x0D#8] = none ∧ read .dataResponse [0x04#8] = none := by decide

theorem test_decode_ready : read .lineState [0xFF#8] = some .ready ∧ read .lineState [0xFE#8] = none := by
  decide

/-- R78 with L = 16. -/
theorem test_decode_rxblock :
    read (.inbound 16) ([0xFE#8] ++ List.replicate 15 0x11#8 ++ [0x22#8] ++ [0xAA#8, 0xBB#8]) =
      some (.rxblock (List.replicate 15 0x11#8 ++ [0x22#8]) 0xAA#8 0xBB#8) := by decide

set_option maxRecDepth 16384 in
/-- R79: the token, 512 bytes, two fillers. -/
theorem test_decode_txblock :
    read .outbound ([0xFE#8] ++ List.replicate 512 0x00#8 ++ [0xFF#8, 0xFF#8]) = some (.txblock Block.zero) := by
  decide

theorem test_decode_csd :
    read .register (List.replicate 16 0x40#8) = some (.csd (Vector.replicate 16 0x40#8)) := by decide +kernel

set_option maxRecDepth 4096 in
/-- R86, P4: SEEK 9 is 0x100000009. -/
theorem test_decode_requests :
    decodeTableWord 40 0x100000009 = some (.seek 9#32) ∧ decodeTableWord 40 0x200000000 = some .read ∧
    decodeTableWord 40 0x300000000 = some (.write Block.zero) ∧
    decodeTableWord 40 0x400000000 = some .blocksize ∧ decodeTableWord 40 0x500000000 = some .blockcount ∧
    decodeTableWord 40 0x000000000 = none ∧ decodeTableWord 40 0x700000000 = none := by decide

theorem test_decode_init : decodeTableWord 0 0 = some .init := by decide

/-! ## States to run on: budgets 8 and 4 as in 95_test_vectors.md -/

def eight : Params :=
  { retryBudget := 8, initBudget := 4, writeEnable := true, capBias := 0, csdHcStruct := 0b01#2
    readyPosition := 0#33 }

/-- A device that INIT has made Ready with 1024000 sectors (C = 1000), the cursor at 7. -/
def readyDevice : DeviceState :=
  { present := true, initialized := true, initResult := .ready, blockSize := 512#33
    blockCount := 1024000#33, position := 7#33 }

/-- The Device State of INIT before and after CMD0 has passed. -/
def bareDevice (present : Bool) : DeviceState := { State.reset.dev with present := present }

/-- A Device State that fits an operation in progress. -/
def deviceIn : TopPhase → DeviceState
  | .initReset => bareDevice false
  | .initVoltage | .initIdleWait | .initReadReg => bareDevice true
  | .idle | .opRead | .opWrite => readyDevice

/-- The frames of V6 to V12, sector 7. -/
def frameIn : TopPhase → Bool → Vector Byte 6
  | .initReset, _ => #v[0x40#8, 0x00#8, 0x00#8, 0x00#8, 0x00#8, 0x95#8]
  | .initVoltage, _ => #v[0x48#8, 0x00#8, 0x00#8, 0x01#8, 0xA5#8, 0x69#8]
  | .initIdleWait, false => #v[0x77#8, 0x00#8, 0x00#8, 0x00#8, 0x00#8, 0xFF#8]
  | .initIdleWait, true => #v[0x69#8, 0x40#8, 0x00#8, 0x00#8, 0x00#8, 0xFF#8]
  | .initReadReg, _ => #v[0x49#8, 0x00#8, 0x00#8, 0x00#8, 0x00#8, 0xFF#8]
  | .opRead, _ => #v[0x51#8, 0x00#8, 0x00#8, 0x00#8, 0x07#8, 0xFF#8]
  | .opWrite, _ => #v[0x58#8, 0x00#8, 0x00#8, 0x00#8, 0x07#8, 0xFF#8]
  | .idle, _ => Vector.replicate 6 0x00#8

/-- A state of a run in this phase: an operation in progress, these answers to come. -/
def during (top : TopPhase) (sub : SubPhase) (acmd : Bool) (answers : List Byte) : State :=
  { State.fresh eight (.oracle answers) with
    phase := ⟨top, sub, acmd⟩, dev := deviceIn top, frame := frameIn top acmd
    r1 := if sub = .r7Bytes then .answer 1#7 else .answer 0#7
    rxData := if sub = .rxCrc then List.replicate (rxLength top) 0x00#8 else []
    txData := if top = .opWrite then some Block.zero else none }

/-- A Ready engine with nothing to do. -/
def idle (answers : List Byte) : State := during .idle .none false answers

/-- An engine whose initialization ended Failed. -/
def failedIdle : State :=
  { idle [] with dev := { State.reset.dev with present := true, initResult := .failed } }

/-- A Ready engine with this request on its lines. -/
def asking (op : BitVec 3) (sector : BitVec 32) (answers : List Byte) : State :=
  { idle answers with request := some ⟨requestWord op sector, Block.zero⟩ }

theorem during_frame (top : TopPhase) (sub : SubPhase) (acmd : Bool) (answers : List Byte) (c : Command)
    (h : commandOf (during top sub acmd answers) = some c) : frameIn top acmd = c.frame := by
  cases top <;> cases acmd <;> cases h <;>
    first | decide | (simp only [during, sectorArgument, deviceIn, Bool.false_eq_true, if_false, if_true]; decide)

theorem during_inv (top : TopPhase) (sub : SubPhase) (acmd : Bool) (answers : List Byte)
    (h : (Phase.mk top sub acmd).legal = true) : Inv (during top sub acmd answers) := by
  constructor
  case frame => exact fun _ c hc => during_frame top sub acmd answers c hc
  case params => exact ⟨by simp [during, State.fresh, eight], by simp [during, State.fresh, eight], rfl⟩
  case phase => exact h
  case payload => intro h; simp only [during] at h ⊢; subst h; rfl
  case received => intro h; simp only [during] at h ⊢; subst h; simp
  case noReceived => intro _ h; simp only [during] at h ⊢; rw [if_neg h]
  case noOutbound => simp only [during] ; cases top <;> simp
  case store => rfl
  case replyAnswered => intro h; simp only [during] at h ⊢; subst h; rfl
  case dataAnswered => intro h; simp only [during] at h ⊢; cases sub <;> first | rfl | cases h
  case pollCounter => intro _; simp [during, State.fresh, State.reset, eight]
  case idleWait => intro _; simp [during, State.fresh, State.reset, eight]
  case runCounter => intro h; simp only [during, State.fresh, State.reset] at h ⊢; omega
  case operation =>
    intro h; simp only [during, State.fresh, State.reset] at h ⊢; rcases h with rfl | rfl <;> decide
  all_goals (simp only [during]; clear h; revert top; intro top; cases top <;> decide)

theorem idle_inv (answers : List Byte) : Inv (idle answers) := during_inv .idle .none false answers rfl

theorem failedIdle_inv : Inv failedIdle :=
  ⟨(idle_inv []).params, rfl, by decide, by decide, by decide, by decide, by decide, by decide, by decide,
    by decide, by decide, by decide, by decide, by decide, by decide, by decide, by decide,
    (fun _ c hc => nomatch hc), by decide, by decide, fun _ _ => rfl, by decide, rfl⟩

theorem eight_legal : legalParams eight := ⟨by decide, by decide, rfl⟩

/-- What a next state shows. -/
def after {α : Type} (o : Host.Outcome State Fault Refusal) (f : State → α) : Option α :=
  match o with
  | .next t => some (f t)
  | .fault _ => none
  | .refused _ => none

/-- The bytes sent. -/
def sent (t : State) : List Byte := t.history.map Prod.fst

/-! ## One instruction each -/

/-- The card is ready at once and hears the frame in silence, then answers these bytes. -/
def answersAfterFrame (bytes : List Byte) : List Byte := List.replicate 7 0xFF#8 ++ bytes

/-- V13: R1 on the second poll, nine exchanges. -/
theorem test_cmd0 :
    after (exec .cmd0 (during .initReset .cmdReady false (answersAfterFrame [0xFF#8, 0x01#8])))
      (fun t => (t.r1, sent t)) =
    some (.answer 1#7, [0xFF#8, 0x40#8, 0x00#8, 0x00#8, 0x00#8, 0x00#8, 0x95#8, 0xFF#8, 0xFF#8]) := by decide

/-- V20: what is heard during the frame is not taken as R1. -/
theorem test_cmd0_ignores_bytes_during_frame :
    after (exec .cmd0 (during .initReset .cmdReady false
        [0xFF#8, 0x00#8, 0x01#8, 0x00#8, 0x00#8, 0x00#8, 0x00#8, 0xFF#8, 0x01#8]))
      (fun t => (t.r1, t.history.length)) = some (.answer 1#7, 9) := by decide

/-- V26 after an R1 of 1: the four bytes are latched. -/
theorem test_cmd8 :
    after (exec .cmd8 (during .initVoltage .cmdReady false
        (answersAfterFrame [0x01#8, 0x12#8, 0x34#8, 0xF1#8, 0xA5#8])))
      (fun t => (t.r1, t.r7, t.history.length)) =
    some (.answer 1#7, #v[0x12#8, 0x34#8, 0xF1#8, 0xA5#8], 12) := by decide

/-- V31: with an R1 of 5 the reply bytes are not read. -/
theorem test_cmd8_stops_at_r1 :
    after (exec .cmd8 (during .initVoltage .cmdReady false (answersAfterFrame [0x05#8, 0x12#8])))
      (fun t => (t.r1, t.history.length, t.card)) = some (.answer 5#7, 8, .oracle [0x12#8]) := by decide

/-- R120, V46: sixteen bytes after the token, two more discarded. -/
theorem test_cmd9 :
    after (exec .cmd9 (during .initReadReg .cmdReady false
        (answersAfterFrame ([0x00#8, 0xFE#8] ++ List.replicate 16 0x42#8 ++ [0xAA#8, 0xBB#8]))))
      (fun t => (t.rxData, t.framerResult, t.history.length)) =
    some (List.replicate 16 0x42#8, .ok, 27) := by decide

/-- V9a: the frame of sector 1023999. -/
theorem test_cmd17 :
    after (exec (.cmd17 1023999#32) (during .opRead .cmdReady false (answersAfterFrame [0x04#8])))
      (fun t => (t.r1, sent t)) =
    some (.answer 4#7, [0xFF#8, 0x51#8, 0x00#8, 0x0F#8, 0x9F#8, 0xFF#8, 0xFF#8, 0xFF#8]) := by decide

/-- V48: no token, eight exchanges, IO. -/
theorem test_cmd17_without_token :
    after (exec (.cmd17 5#32) (during .opRead .cmdReady false (answersAfterFrame (0x00#8 :: List.replicate 8 0xFF#8))))
      (fun t => (t.framerResult, t.history.length)) = some (.io, 16) := by decide

/-- V10a, V69: R1 is 1, so no start token is sent. -/
theorem test_cmd24 :
    after (exec (.cmd24 0x01020304#32) (during .opWrite .cmdReady false (answersAfterFrame [0x01#8])))
      (fun t => (t.r1, sent t)) =
    some (.answer 1#7, [0xFF#8, 0x58#8, 0x01#8, 0x02#8, 0x03#8, 0x04#8, 0xFF#8, 0xFF#8]) := by decide

/-- V51: 519 exchanges after the command. -/
theorem test_cmd24_transmits :
    after (exec (.cmd24 5#32) (during .opWrite .cmdReady false
        (answersAfterFrame (0x00#8 :: (List.replicate 515 0xFF#8 ++ [0xE5#8, 0x00#8, 0x00#8, 0xFF#8])))))
      (fun t => (t.framerResult, t.history.length)) = some (.ok, 527) := by decide +kernel

/-- R64, R122: without a WRITE the row sends a payload of which nothing is known, and holds no copy of it. -/
theorem test_cmd24_outside_a_write :
    after (exec (.cmd24 5#32) (idle
        (answersAfterFrame (0x00#8 :: (List.replicate 515 0xFF#8 ++ [0x05#8, 0xFF#8])))))
      (fun t => (t.txData, t.framerResult, t.history.length)) = some (none, .ok, 525) := by decide +kernel

theorem test_acmd41 :
    after (exec .acmd41 (during .initIdleWait .cmdReady true (answersAfterFrame [0x00#8])))
      (fun t => (t.r1, sent t)) =
    some (.answer 0#7, [0xFF#8, 0x69#8, 0x40#8, 0x00#8, 0x00#8, 0x00#8, 0xFF#8, 0xFF#8]) := by decide

/-- V16 with eight polls: Timeout. -/
theorem test_cmd55_times_out :
    after (exec .cmd55 (during .initIdleWait .cmdReady false (answersAfterFrame (List.replicate 8 0xFF#8))))
      (fun t => (t.r1, (sent t).take 7)) =
    some (.timeout, [0xFF#8, 0x77#8, 0x00#8, 0x00#8, 0x00#8, 0x00#8, 0xFF#8]) := by decide

/-- P8, last line: R1 of 1 makes the card present and VoltageCheck begin. -/
theorem test_r1 :
    after (exec (.r1 1#7) (during .initReset .cmdR1 false [])) (fun t => (t.dev.present, t.phase)) =
    some (true, ⟨.initVoltage, .cmdReady, false⟩) := by decide

/-- V84: R1 of 0 to CMD0 is NotPresent. -/
theorem test_r1_of_0_to_cmd0 :
    after (exec (.r1 0#7) (during .initReset .cmdR1 false [])) (fun t => (t.dev.initResult, t.phase)) =
    some (.notPresent, Phase.idle) := by decide

/-- V26. -/
theorem test_r7_passes :
    after (exec (.r7 0x12#8 0x34#8 0xF1#8 0xA5#8) (during .initVoltage .r7Bytes false [])) (fun t => t.phase) =
    some ⟨.initIdleWait, .cmdReady, false⟩ := by decide

/-- V29. -/
theorem test_r7_wrong_echo :
    after (exec (.r7 0x00#8 0x00#8 0x01#8 0xAA#8) (during .initVoltage .r7Bytes false []))
      (fun t => (t.phase, t.dev.initResult)) = some (Phase.idle, .unsupported) := by decide

theorem test_start :
    after (exec .start (during .opRead .rxToken false [])) (fun t => t.phase.sub) = some .rxPayload := by decide

/-- V51b: bits 7:5 are not examined. -/
theorem test_dresp_accept :
    after (exec (.drespAccept 0b010#3) (during .opWrite .txResp false [])) (fun t => t.phase.sub) =
    some .txBusy := by decide

/-- R178, R181: the cursor moves from 7 to 8. -/
theorem test_ready_ends_write :
    after (exec .ready (during .opWrite .txBusy false [])) (fun t => (t.dev.position, t.responses)) =
    some (8#33, [.status .ok]) := by decide

/-- V35: C = 1000 gives 1024000 sectors. -/
theorem test_rxblock_csd :
    after (exec (.rxblock ([0x40#8] ++ List.replicate 6 0x00#8 ++ [0x00#8, 0x03#8, 0xE8#8] ++
        List.replicate 6 0x00#8) 0xAA#8 0xBB#8) (during .initReadReg .rxToken false []))
      (fun t => (t.dev.initResult, t.dev.blockCount, t.dev.position)) = some (.ready, 1024000#33, 0#33) := by
  decide +kernel

/-- R154: 515 exchanges, the last two bytes sent are the fillers. -/
theorem test_txblock :
    after (exec (.txblock Block.zero) (during .opWrite .txToken false [])) (fun t =>
      ((sent t).length, (sent t).head?, (sent t).drop 513)) =
    some (515, some 0xFE#8, [0xFF#8, 0xFF#8]) := by decide +kernel

/-- V37: structure 0b00. -/
theorem test_csd_standard_capacity :
    after (exec (.csd (Vector.replicate 16 0x00#8)) (during .initReadReg .rxPayload false []))
      (fun t => (t.dev.initResult, t.dev.initialized)) = some (.unsupported, false) := by decide +kernel

/-- V61. -/
theorem test_seek_last_sector :
    after (exec (.seek 1023999#32) (idle [])) (fun t => (t.dev.position, t.responses, t.history)) =
    some (1023999#33, [.status .ok], []) := by decide

/-- V60. -/
theorem test_seek_out_of_bounds :
    after (exec (.seek 1024000#32) (idle [])) (fun t => (t.dev.position, t.responses)) =
    some (7#33, [.status .outOfBounds]) := by decide

/-- R50, R64: the sector is in the response, and no copy of it in the engine. -/
theorem test_read_leaves_no_copy :
    after (exec .read (idle
        (answersAfterFrame ([0x00#8, 0xFE#8] ++ List.replicate 512 0x42#8 ++ [0xAA#8, 0xBB#8]))))
      (fun t => (t.responses, t.rxData)) = some ([.data (List.replicate 512 0x42#8)], []) := by decide +kernel

/-- V67. -/
theorem test_read_bad_r1 :
    after (exec .read (idle (answersAfterFrame [0x04#8])))
      (fun t => (t.responses, t.dev.position, t.history.length)) = some ([.status .io], 7#33, 8) := by decide

set_option maxRecDepth 4096 in
/-- V65. -/
theorem test_read_at_the_end :
    after (exec .read { idle [] with dev := { readyDevice with position := 1024000#33 } })
      (fun t => (t.responses, t.history)) = some ([.status .outOfBounds], []) := by decide

/-- V73: NotWritable is checked before the bounds. -/
theorem test_write_disabled :
    after (exec (.write Block.zero) { idle [] with params := { eight with writeEnable := false }
                                                   dev := { readyDevice with position := 1024000#33 } })
      (fun t => (t.responses, t.history)) = some ([.status .notWritable], []) := by decide

/-- V69. -/
theorem test_write_bad_r1 :
    after (exec (.write Block.zero) (idle (answersAfterFrame [0x01#8])))
      (fun t => (t.responses, t.dev.position, t.history.length)) = some ([.status .io], 7#33, 8) := by decide

/-- V74 and V75. -/
theorem test_accessors :
    after (exec .blocksize (idle [])) (fun t => t.responses) = some [.number 512#33] ∧
    after (exec .blockcount (idle [])) (fun t => t.responses) = some [.number 1024000#33] := by decide

/-- V80: an empty socket, 15 exchanges. -/
theorem test_init_empty_socket :
    after (exec .init (State.fresh eight (.constant 0xFF#8)))
      (fun t => (t.dev.initResult, t.dev.present, t.history.length)) = some (.notPresent, false, 15) := by decide

/-- V82: a card that answers 0x01 to everything, 34 exchanges. -/
theorem test_init_echoing_card :
    after (exec .init (State.fresh eight (.constant 0x01#8)))
      (fun t => (t.dev.initResult, t.dev.present, t.history.length)) = some (.unsupported, true, 34) := by decide

/-! ## A table word as the next work (log 18) -/

/-- The row SEEK 9: an engine that is not initialized answers IO. -/
theorem test_withFetchWord_seek :
    after (step (State.reset.withFetchWord 40 0x100000009)) (fun t => t.responses) = some [.status .io] := by
  decide

/-- The row R1 with R1 == 1: the engine takes its row of R138. -/
theorem test_withFetchWord_r1 :
    after (step (State.reset.withFetchWord 8 0x01)) (fun t => t.phase) =
    some ⟨.initVoltage, .cmdReady, false⟩ := by decide

/-! ## Witnesses: for every statement with hypotheses, values that meet them, clause by clause -/

/-! ### Polls, with a budget of 8 -/

theorem ready_at_once : ReadyPoll 8 [0xFF#8] := .inl ⟨[], 0xFF#8, rfl, by decide, by decide, by decide⟩

theorem ready_on_the_last_try : ReadyPoll 8 (List.replicate 7 0x00#8 ++ [0xFF#8]) :=
  .inl ⟨_, 0xFF#8, rfl, by decide, by decide, by decide⟩

theorem ready_exhausted : ReadyPoll 8 (List.replicate 8 0x00#8) := .inr ⟨by decide, by decide⟩

theorem r1_on_the_last_try (bits : BitVec 7) : R1Answer 8 bits (List.replicate 7 0xFF#8 ++ [r1Byte bits]) :=
  ⟨_, rfl, by decide, by simp⟩

theorem r1_never : PollMiss 8 isR1 (List.replicate 8 0x80#8) := ⟨by decide, by decide⟩

theorem token_on_the_last_try : PollHit 8 isStartToken (List.replicate 7 0xFC#8 ++ [0xFE#8]) :=
  ⟨_, _, rfl, by decide, by decide, by decide⟩

theorem token_never : PollMiss 8 isStartToken (List.replicate 8 0xFF#8) := ⟨by decide, by decide⟩

theorem released_on_the_last_try : PollHit 8 isReady (List.replicate 7 0x7F#8 ++ [0xFF#8]) :=
  ⟨_, _, rfl, by decide, by decide, by decide⟩

theorem released_never : PollMiss 8 isReady (List.replicate 8 0x00#8) := ⟨by decide, by decide⟩

/-- The six bytes heard during a frame. -/
def heard : List Byte := List.replicate 6 0xFF#8

/-- The bytes heard during a block of 515. -/
def heardBlock : List Byte := List.replicate 515 0xFF#8

theorem heardBlock_length : heardBlock.length = 515 := List.length_replicate

/-! ### Encodings -/

set_option maxRecDepth 4096 in
theorem witness_DecodeOfEncode :
    (Instr.rxblock (List.replicate 512 0xA5#8) 0x01#8 0x02#8).wf = true ∧ (Instr.cmd17 0xFFFFFFFF#32).wf = true := by
  decide

theorem witness_EncodeOfDecode :
    decode .status (.wire [0x7F#8]) = .ok (.r1 0x7F#7) ∧
    decode .dataResponse (.wire [0xE5#8]) = .ok (.drespAccept 7#3) := ⟨rfl, rfl⟩

/-- Codes 6, 7 and 0 on the lines of an IDLE engine without a script. -/
theorem witness_HostRequestForms :
    ∀ op ∈ [6#3, 7#3, 0#3], (asking op 0#32 []).phase.top = .idle ∧
      (∃ r, (asking op 0#32 []).request = some r ∧ r.op = op) ∧ (asking op 0#32 []).script = [] := by
  intro op h
  refine ⟨rfl, ⟨_, rfl, ?_⟩, rfl⟩
  revert op; decide

/-- Every operation that sends a frame, and both commands of IdleWait. -/
theorem witness_EmittedFrames (top : TopPhase) (acmd : Bool) (h : top ≠ .idle) :
    Inv (during top .cmdFrame acmd []) ∧ (during top .cmdFrame acmd []).phase.sub = .cmdFrame := by
  refine ⟨during_inv _ _ _ _ ?_, rfl⟩
  cases top <;> first | rfl | exact absurd rfl h

/-! ### Reset, and what a step runs -/

theorem witness_InitStartsByItself :
    ∃ (p : Params) (card : Card) (s : State) (r : HostRequest), legalParams p ∧ card.wf = true ∧
      Host.Core.run Sys2Proof.core 0 (State.fresh p card) = .next s ∧ s.dev.initResult = .pending ∧ r.op ≠ 0#3 :=
  ⟨eight, .oracle [], _, ⟨requestWord 1#3 5#32, Block.zero⟩, eight_legal, rfl, rfl, rfl, by decide⟩

/-- A SEEK makes no exchange, a READ of a Ready device makes one. -/
theorem witness_StepRunsDecodedRequest :
    (∃ s r, s = asking 1#3 9#32 [] ∧ s.phase.top = .idle ∧ s.request = some r ∧
      decode .host (.request r) = .ok (.seek 9#32) ∧
      busy (startRequest (.seek 9#32) { s with request := none }) = false) ∧
    (∃ s r, s = asking 2#3 0#32 [] ∧ s.phase.top = .idle ∧ s.request = some r ∧
      decode .host (.request r) = .ok .read ∧
      busy (startRequest .read { s with request := none }) = true ∧ s.stalled = false) :=
  ⟨⟨_, _, rfl, rfl, rfl, rfl, rfl⟩, ⟨_, _, rfl, rfl, rfl, rfl, rfl, rfl⟩⟩

/-- A request on the lines, and one in the script. -/
theorem witness_RequestReachesItsMeaning :
    ∃ (s : State) (r : HostRequest), s.phase.top = .idle ∧ s.stalled = false ∧
      decode .host (.request r) = .ok .read ∧ s.request = some r ∧
      ({ s with request := none, script := [r] } : State).script = [r] :=
  ⟨asking 2#3 0#32 [], ⟨requestWord 2#3 0#32, Block.zero⟩, rfl, rfl, rfl, rfl, rfl⟩

/-- The five places where a received byte is decoded. -/
theorem witness_StepRunsReceivedByte :
    (∃ i, busy (during .initReset .cmdR1 false [0x01#8]) = true ∧ decode .status (.wire [0x01#8]) = .ok i) ∧
    (∃ i, busy (during .opRead .rxToken false [0xFE#8]) = true ∧ decode .token (.wire [0xFE#8]) = .ok i) ∧
    (∃ i, busy (during .opWrite .txResp false [0x05#8]) = true ∧
      decode .dataResponse (.wire [0x05#8]) = .ok i) ∧
    (∃ i, busy (during .initReset .cmdReady false [0xFF#8]) = true ∧
      decode .lineState (.wire [0xFF#8]) = .ok i) ∧
    (∃ i, busy (during .opWrite .txBusy false [0xFF#8]) = true ∧ decode .lineState (.wire [0xFF#8]) = .ok i) ∧
    ∀ top sub b, (during top sub false [b]).card = .oracle (b :: []) ∧
      (during top sub false [b]).request = none :=
  ⟨⟨_, rfl, rfl⟩, ⟨_, rfl, rfl⟩, ⟨_, rfl, rfl⟩, ⟨_, rfl, rfl⟩, ⟨_, rfl, rfl⟩, fun _ _ _ => ⟨rfl, rfl⟩⟩

theorem witness_StepsRunBlocks :
    (∃ s : State, busy s = true ∧ s.request = none ∧ s.stalled = false ∧ s.phase.sub = .r7Bytes ∧ s.k = 0 ∧
      s.card = .oracle ([0x00#8, 0x00#8, 0x01#8, 0xA5#8] ++ [])) ∧
    (∃ (s : State) (payload : List Byte), busy s = true ∧ s.request = none ∧ s.stalled = false ∧
      s.phase.sub = .rxToken ∧ payload.length = rxLength s.phase.top ∧
      s.card = .oracle (inboundBytes payload 0xAA#8 0xBB#8 ++ [])) ∧
    (∃ (s : State) (register : Csd), busy s = true ∧ s.request = none ∧ s.stalled = false ∧
      s.phase.top = .initReadReg ∧ s.phase.sub = .rxPayload ∧ s.k = 0 ∧
      s.card = .oracle (register.toList ++ [])) ∧
    (∃ (s : State) (payload : Block), busy s = true ∧ s.request = none ∧ s.stalled = false ∧
      s.phase.sub = .txToken ∧ s.txData = some payload) :=
  ⟨⟨during .initVoltage .r7Bytes false _, rfl, rfl, rfl, rfl, rfl, rfl⟩,
   ⟨during .opRead .rxToken false _, List.replicate 512 0x00#8, rfl, rfl, rfl, rfl, List.length_replicate, rfl⟩,
   ⟨during .initReadReg .rxPayload false _, Vector.replicate 16 0x40#8, rfl, rfl, rfl, rfl, rfl, rfl, rfl⟩,
   ⟨during .opWrite .txToken false [], Block.zero, rfl, rfl, rfl, rfl, rfl⟩⟩

/-- Every operation at the first exchange of its command, and both commands of IdleWait. -/
theorem witness_StepsRunCommands (top : TopPhase) (acmd : Bool) :
    ∃ s : State, s.phase.sub = .cmdReady ∧ s.n = 0 ∧ s.request = none ∧ s.stalled = false ∧
      s.phase.top = top ∧ s.phase.acmd = acmd ∧ (top = .opWrite → s.txData.isSome = true) :=
  ⟨during top .cmdReady acmd [], rfl, rfl, rfl, rfl, rfl, rfl, fun h => by simp [during, h]⟩

/-! ### Commands -/

/-- A ready poll on the last try and an exhausted one; an R1 on the last try, and none. -/
theorem witness_SendCommand :
    (∃ (s : State) (ready frameIn r1In rest : List Byte) (bits : BitVec 7), 1 ≤ s.params.retryBudget ∧
      ReadyPoll s.params.retryBudget ready ∧ frameIn.length = 6 ∧ R1Answer s.params.retryBudget bits r1In ∧
      s.card = .oracle (ready ++ frameIn ++ r1In ++ rest)) ∧
    (∃ (s : State) (ready frameIn r1In rest : List Byte), 1 ≤ s.params.retryBudget ∧
      ReadyPoll s.params.retryBudget ready ∧ frameIn.length = 6 ∧ PollMiss s.params.retryBudget isR1 r1In ∧
      s.card = .oracle (ready ++ frameIn ++ r1In ++ rest)) :=
  ⟨⟨during .initReset .cmdReady false _, _, heard, _, [], 0x7F#7, by decide +revert, ready_on_the_last_try, rfl,
      r1_on_the_last_try _, rfl⟩,
   ⟨during .initReset .cmdReady false _, _, heard, _, [0x01#8], by decide +revert, ready_exhausted, rfl, r1_never,
      rfl⟩⟩

/-- CMD0 answered, ACMD41 and CMD55 not. -/
theorem witness_CommandsWithoutData :
    (∃ (s : State) (ready frameIn r1In rest : List Byte) (bits : BitVec 7), s.stalled = false ∧
      1 ≤ s.params.retryBudget ∧ ReadyPoll s.params.retryBudget ready ∧ frameIn.length = 6 ∧
      R1Answer s.params.retryBudget bits r1In ∧ s.card = .oracle (ready ++ frameIn ++ r1In ++ rest)) ∧
    (∃ (s : State) (ready frameIn r1In rest : List Byte), s.stalled = false ∧
      1 ≤ s.params.retryBudget ∧ ReadyPoll s.params.retryBudget ready ∧ frameIn.length = 6 ∧
      PollMiss s.params.retryBudget isR1 r1In ∧ s.card = .oracle (ready ++ frameIn ++ r1In ++ rest)) :=
  ⟨⟨during .initReset .cmdReady false _, _, heard, _, [], 1#7, rfl, by decide +revert, ready_at_once, rfl,
      r1_on_the_last_try _, rfl⟩,
   ⟨during .initIdleWait .cmdReady true _, _, heard, _, [], rfl, by decide +revert, ready_exhausted, rfl, r1_never,
      rfl⟩⟩
theorem witness_DataCommandsStopAtR1 :
    (∃ (s : State) (ready frameIn r1In rest : List Byte) (bits goOn : BitVec 7), s.stalled = false ∧
      1 ≤ s.params.retryBudget ∧ ReadyPoll s.params.retryBudget ready ∧ frameIn.length = 6 ∧
      R1Answer s.params.retryBudget bits r1In ∧ bits ≠ goOn ∧ goOn = 0#7 ∧
      s.card = .oracle (ready ++ frameIn ++ r1In ++ rest)) ∧
    (∃ (s : State) (ready frameIn r1In rest : List Byte), s.stalled = false ∧
      1 ≤ s.params.retryBudget ∧ ReadyPoll s.params.retryBudget ready ∧ frameIn.length = 6 ∧
      PollMiss s.params.retryBudget isR1 r1In ∧ s.card = .oracle (ready ++ frameIn ++ r1In ++ rest)) :=
  ⟨⟨during .opRead .cmdReady false _, _, heard, _, [], 1#7, 0#7, rfl, by decide +revert, ready_at_once, rfl,
      r1_on_the_last_try _, by decide, rfl, rfl⟩,
   ⟨during .initVoltage .cmdReady false _, _, heard, _, [], rfl, by decide +revert, ready_exhausted, rfl, r1_never,
      rfl⟩⟩

theorem witness_Cmd8ReadsReply :
    ∃ (s : State) (ready frameIn r1In rest : List Byte) (b0 b1 b2 b3 : Byte), s.stalled = false ∧
      1 ≤ s.params.retryBudget ∧ ReadyPoll s.params.retryBudget ready ∧ frameIn.length = 6 ∧
      R1Answer s.params.retryBudget 1#7 r1In ∧
      s.card = .oracle (ready ++ frameIn ++ r1In ++ [b0, b1, b2, b3] ++ rest) :=
  ⟨during .initVoltage .cmdReady false _, _, heard, _, [], 0xFF#8, 0xFF#8, 0xFF#8, 0xFF#8, rfl, by decide +revert,
    ready_at_once, rfl, r1_on_the_last_try _, rfl⟩

theorem witness_ReadCommandsReceive :
    (∃ (s : State) (ready frameIn r1In tokenIn rest payload : List Byte) (crc0 crc1 : Byte), s.stalled = false ∧
      1 ≤ s.params.retryBudget ∧ ReadyPoll s.params.retryBudget ready ∧ frameIn.length = 6 ∧
      R1Answer s.params.retryBudget 0#7 r1In ∧ PollHit s.params.retryBudget isStartToken tokenIn ∧
      payload.length = 512 ∧
      s.card = .oracle (ready ++ frameIn ++ r1In ++ tokenIn ++ payload ++ [crc0, crc1] ++ rest)) ∧
    (∃ (s : State) (ready frameIn r1In tokenIn rest : List Byte), s.stalled = false ∧
      1 ≤ s.params.retryBudget ∧ ReadyPoll s.params.retryBudget ready ∧ frameIn.length = 6 ∧
      R1Answer s.params.retryBudget 0#7 r1In ∧ PollMiss s.params.retryBudget isStartToken tokenIn ∧
      s.card = .oracle (ready ++ frameIn ++ r1In ++ tokenIn ++ rest)) :=
  ⟨⟨during .opRead .cmdReady false _, _, heard, _, _, [], List.replicate 512 0xFE#8, 0x12#8, 0x34#8, rfl,
      by decide +revert, ready_at_once, rfl, r1_on_the_last_try _, token_on_the_last_try, List.length_replicate,
      rfl⟩,
   ⟨during .initReadReg .cmdReady false _, _, heard, _, _, [], rfl, by decide +revert, ready_exhausted, rfl,
      r1_on_the_last_try _, token_never, rfl⟩⟩

/-- Rejected; accepted and released; accepted and never released, outside a WRITE. -/
theorem witness_Cmd24Transmits :
    (∃ (s : State) (ready frameIn r1In blockIn rest : List Byte) (d : Byte), s.stalled = false ∧
      1 ≤ s.params.retryBudget ∧ ReadyPoll s.params.retryBudget ready ∧ frameIn.length = 6 ∧
      R1Answer s.params.retryBudget 0#7 r1In ∧ blockIn.length = 515 ∧ d &&& 0x1F#8 ≠ 0x05#8 ∧
      s.card = .oracle (ready ++ frameIn ++ r1In ++ blockIn ++ [d] ++ rest)) ∧
    (∃ (s : State) (ready frameIn r1In blockIn busyIn rest : List Byte) (d : Byte), s.stalled = false ∧
      1 ≤ s.params.retryBudget ∧ ReadyPoll s.params.retryBudget ready ∧ frameIn.length = 6 ∧
      R1Answer s.params.retryBudget 0#7 r1In ∧ blockIn.length = 515 ∧ d &&& 0x1F#8 = 0x05#8 ∧
      s.card = .oracle (ready ++ frameIn ++ r1In ++ blockIn ++ [d] ++ busyIn ++ rest) ∧
      PollHit s.params.retryBudget isReady busyIn) ∧
    (∃ (s : State) (ready frameIn r1In blockIn busyIn rest : List Byte) (d : Byte), s.stalled = false ∧
      1 ≤ s.params.retryBudget ∧ ReadyPoll s.params.retryBudget ready ∧ frameIn.length = 6 ∧
      R1Answer s.params.retryBudget 0#7 r1In ∧ blockIn.length = 515 ∧ d &&& 0x1F#8 = 0x05#8 ∧
      s.card = .oracle (ready ++ frameIn ++ r1In ++ blockIn ++ [d] ++ busyIn ++ rest) ∧
      PollMiss s.params.retryBudget isReady busyIn ∧ s.txData = none) :=
  ⟨⟨during .opWrite .cmdReady false _, _, heard, _, heardBlock, [], 0x0D#8, rfl, by decide +revert, ready_at_once,
      rfl, r1_on_the_last_try _, heardBlock_length, by decide, rfl⟩,
   ⟨during .opWrite .cmdReady false _, _, heard, _, heardBlock, _, [], 0xE5#8, rfl, by decide +revert,
      ready_at_once, rfl, r1_on_the_last_try _, heardBlock_length, by decide, rfl, released_on_the_last_try⟩,
   ⟨idle _, _, heard, _, heardBlock, _, [], 0x05#8, rfl, by decide +revert,
      ready_at_once, rfl, r1_on_the_last_try _, heardBlock_length, by decide, rfl, released_never, rfl⟩⟩

theorem witness_CommandsFrame :
    (∀ i ∈ [Instr.cmd0, .cmd8, .cmd9, .cmd17 7#32, .cmd24 7#32, .acmd41, .cmd55], i.context = .command) ∧
    (idle []).stalled = false := ⟨by decide, rfl⟩

/-! ### Wire formats -/

/-- Every operation can be in its R1 poll. -/
theorem witness_R1EndsThePoll (top : TopPhase) (acmd : Bool) (h : top ≠ .idle) :
    ∃ s : State, Inv s ∧ s.phase.sub = .cmdR1 ∧ busy s = true ∧ s.stalled = false ∧ s.phase.top = top ∧
      s.phase.acmd = acmd ∧ s.it + 1 < s.params.initBudget := by
  refine ⟨during top .cmdR1 acmd [], during_inv _ _ _ _ ?_, rfl, ?_, rfl, rfl, rfl, ?_⟩ <;>
    cases top <;> first | rfl | exact absurd rfl h | (simp [during, State.fresh, State.reset, eight])

/-- The last iteration of IdleWait. -/
theorem witness_R1EndsThePoll_last_iteration :
    ∃ s : State, s.phase.sub = .cmdR1 ∧ busy s = true ∧ s.stalled = false ∧ s.phase.top = .initIdleWait ∧
      s.phase.acmd = true ∧ s.it + 1 = s.params.initBudget :=
  ⟨{ during .initIdleWait .cmdR1 true [] with it := 3 }, rfl, rfl, rfl, rfl, rfl, rfl⟩

/-- The four polls; the last byte that still only counts is the seventh of eight. -/
theorem witness_PollsSkipOtherBytes :
    ∃ i : Byte, i ≠ 0xFF#8 ∧ i ≠ 0xFE#8 ∧ 0x80#8 ≤ i ∧
      ∀ p ∈ [(TopPhase.initReset, SubPhase.cmdReady), (.initReset, .cmdR1), (.opRead, .rxToken),
          (.opWrite, .txBusy)],
        ∀ n ∈ [0, 6], ∃ s : State, s.phase.sub = p.2 ∧ busy s = true ∧ s.n = n ∧
          s.n + 1 < s.params.retryBudget := by
  refine ⟨0xFC#8, by decide, by decide, by decide, fun p hp n hn => ?_⟩
  refine ⟨{ during p.1 p.2 false [] with n := n }, rfl, ?_, rfl, ?_⟩
  · simp only [List.mem_cons, List.not_mem_nil, or_false] at hp
    rcases hp with rfl | rfl | rfl | rfl <;> rfl
  · simp only [List.mem_cons, List.not_mem_nil, or_false] at hn
    rcases hn with rfl | rfl <;> simp [during, State.fresh, eight]

/-- The eighth byte of eight, in every operation that polls there. -/
theorem witness_PollExhaustion (top : TopPhase) (sub : SubPhase) (h : top ≠ .idle) :
    ∃ (i : Byte) (s : State), busy s = true ∧ s.n + 1 = s.params.retryBudget ∧ s.phase.top = top ∧
      s.phase.sub = sub ∧ i ≠ 0xFF#8 ∧ i ≠ 0xFE#8 ∧ 0x80#8 ≤ i := by
  refine ⟨0x80#8, { during top sub false [] with n := 7 }, ?_, rfl, rfl, rfl, by decide, by decide, by decide⟩
  cases top <;> first | rfl | exact absurd rfl h

theorem witness_ReplyDecidesVoltage :
    ∃ s : State, s.phase = ⟨.initVoltage, .r7Bytes, s.phase.acmd⟩ ∧ s.k = 0 ∧ s.stalled = false :=
  ⟨during .initVoltage .r7Bytes false [], rfl, rfl, rfl⟩

theorem witness_StartTokenBothWays :
    (∃ s : State, busy s = true ∧ s.stalled = false ∧ s.phase.sub = .rxToken) ∧
    (∃ s : State, busy s = true ∧ s.stalled = false ∧ s.phase.sub = .txToken) :=
  ⟨⟨during .opRead .rxToken false [], rfl, rfl, rfl⟩, ⟨during .opWrite .txToken false [], rfl, rfl, rfl⟩⟩

theorem witness_DataResponseDecides :
    (∃ s : State, s.phase.top = .opWrite ∧ s.phase.sub = .txResp ∧ s.stalled = false) ∧
    (0x0D#8).toNat % 32 ≠ 5 := ⟨⟨during .opWrite .txResp false [], rfl, rfl, rfl⟩, by decide⟩

theorem witness_ReadyByte :
    (∃ s : State, busy s = true ∧ s.stalled = false ∧ s.phase.sub = .cmdReady ∧ s.n ≠ 0) ∧
    (∃ s : State, busy s = true ∧ s.stalled = false ∧ s.phase.top = .opWrite ∧ s.phase.sub = .txBusy) :=
  ⟨⟨{ during .initReset .cmdReady false [] with n := 1 }, rfl, rfl, rfl, by decide⟩,
   ⟨during .opWrite .txBusy false [], rfl, rfl, rfl, rfl⟩⟩

theorem witness_InboundBlockIsTaken :
    (∃ (s : State) (payload : List Byte), s.phase.sub = .rxToken ∧ s.stalled = false ∧
      s.phase.top = .opRead ∧ payload.length = 512) ∧
    (∃ s : State, s.phase.sub = .rxToken ∧ s.stalled = false ∧ s.phase.top = .initReadReg) :=
  ⟨⟨during .opRead .rxToken false [], List.replicate 512 0x00#8, rfl, rfl, rfl, List.length_replicate⟩,
   ⟨during .initReadReg .rxToken false [], rfl, rfl, rfl⟩⟩

theorem witness_OutboundBlockIsSent : (during .opWrite .txToken false []).stalled = false := rfl

theorem witness_CsdIsDecoded :
    ∃ s : State, s.phase = ⟨.initReadReg, .rxPayload, s.phase.acmd⟩ ∧ s.k = 0 ∧ s.rxData = [] ∧
      s.stalled = false := ⟨during .initReadReg .rxPayload false [], rfl, rfl, rfl, rfl⟩

/-- Both biases; V42 and V43 are the bounds. -/
theorem witness_CapacityIsExact :
    (∃ p : Params, p.capBias = 0 ∧ (csdCount p (Vector.replicate 16 0xFF#8)).toNat = 4294966272) ∧
    (∃ p : Params, p.capBias = 1 ∧ (csdCount p (Vector.replicate 16 0xFF#8)).toNat = 4294967296) :=
  ⟨⟨eight, rfl, by decide⟩, ⟨{ eight with capBias := 1 }, rfl, by decide⟩⟩

/-- An IDLE engine; a busy one; START where it is received. -/
theorem witness_ReceivedBytesAreExchanges :
    (∀ i ∈ [Instr.r1 0#7, .r7 0x00#8 0x00#8 0x01#8 0xA5#8, .start, .drespAccept 7#3, .ready,
        .rxblock (List.replicate 16 0x00#8) 0xAA#8 0xBB#8, .csd (Vector.replicate 16 0x40#8)],
      ∃ bytes, encode i = .wire bytes ∧ i.context ≠ .command ∧ i.context ≠ .outbound) ∧
    (idle []).stalled = false ∧ busy (idle []) = false ∧
    (∃ s : State, s.stalled = false ∧ busy s = true ∧ s.phase.sub ≠ .txToken) := by
  refine ⟨?_, rfl, rfl, during .opRead .rxToken false [], rfl, rfl, by decide⟩
  simp only [List.forall_mem_cons]
  exact ⟨⟨_, rfl, by decide, by decide⟩, ⟨_, rfl, by decide, by decide⟩, ⟨_, rfl, by decide, by decide⟩,
    ⟨_, rfl, by decide, by decide⟩, ⟨_, rfl, by decide, by decide⟩, ⟨_, rfl, by decide, by decide⟩,
    ⟨_, rfl, by decide, by decide⟩, fun _ h => nomatch h⟩

theorem witness_CrcBytesInfluenceNothing :
    ∃ (s : State) (payload : List Byte), busy s = true ∧ s.stalled = false ∧ s.phase.sub = .rxToken ∧
      payload.length = rxLength s.phase.top :=
  ⟨during .initReadReg .rxToken false [], List.replicate 16 0x40#8, rfl, rfl, rfl, rfl⟩

theorem witness_DiscardedBytes :
    (∃ s : State, busy s = true ∧ s.phase.sub = .cmdFrame) ∧
    (∀ sub ∈ [SubPhase.txToken, .txPayload, .txCrc], ∃ s : State, busy s = true ∧ s.phase.sub = sub) :=
  ⟨⟨during .initReset .cmdFrame false [], rfl, rfl⟩, fun sub _ => ⟨during .opWrite sub false [], rfl, rfl⟩⟩

/-! ### Host operations -/

/-- Not initialized; the sector count; the last sector. -/
theorem witness_SeekMovesTheCursor :
    (∃ s : State, s.phase = Phase.idle ∧ s.dev.initialized = false) ∧
    (∃ s : State, s.phase = Phase.idle ∧ s.dev.initialized = true ∧
      s.dev.blockCount.toNat ≤ (1024000#32).toNat ∧ (1023999#32).toNat < s.dev.blockCount.toNat) :=
  ⟨⟨failedIdle, rfl, rfl⟩, ⟨idle [], rfl, rfl, by decide, by decide⟩⟩

theorem witness_AccessorsArePureReads :
    (∃ s : State, Inv s ∧ s.phase = Phase.idle ∧ s.dev.initialized = true) ∧
    (∃ s : State, Inv s ∧ s.phase = Phase.idle ∧ s.dev.initialized = false) :=
  ⟨⟨idle [], idle_inv [], rfl, rfl⟩, ⟨failedIdle, failedIdle_inv, rfl, rfl⟩⟩

/-- A Ready engine with the cursor at the sector count, 1024000. -/
def atTheEnd : State := { idle [] with dev := { readyDevice with position := 1024000#33 } }

theorem witness_PreconditionsInOrder :
    (∃ s : State, s.phase = Phase.idle ∧ s.dev.initialized = false) ∧
    (∃ s : State, s.phase = Phase.idle ∧ s.dev.initialized = true ∧ s.params.writeEnable = false) ∧
    (∃ s : State, s.phase = Phase.idle ∧ s.dev.initialized = true ∧ s.params.writeEnable = true ∧
      s.dev.blockCount.toNat = s.dev.position.toNat ∧ s.dev.blockCount.toNat ≤ (1024000#32).toNat) :=
  ⟨⟨failedIdle, rfl, rfl⟩, ⟨{ idle [] with params := { eight with writeEnable := false } }, rfl, rfl, rfl⟩,
   ⟨atTheEnd, rfl, rfl, rfl, rfl, by decide⟩⟩

/-- A Ready engine with the cursor at the last sector. -/
def atTheLast (answers : List Byte) : State :=
  { idle answers with dev := { readyDevice with position := 1023999#33 } }

theorem atTheLast_readyIdle (answers : List Byte) : ReadyIdle (atTheLast answers) := ⟨rfl, rfl, rfl⟩

theorem witness_ReadDelivers :
    ∃ (s : State) (ready frameIn r1In tokenIn payload rest : List Byte) (crc0 crc1 : Byte), ReadyIdle s ∧
      s.dev.position.toNat < s.dev.blockCount.toNat ∧ 1 ≤ s.params.retryBudget ∧
      ReadyPoll s.params.retryBudget ready ∧ frameIn.length = 6 ∧ R1Answer s.params.retryBudget 0#7 r1In ∧
      PollHit s.params.retryBudget isStartToken tokenIn ∧ payload.length = 512 ∧
      s.card = .oracle (ready ++ frameIn ++ r1In ++ tokenIn ++ payload ++ [crc0, crc1] ++ rest) :=
  ⟨atTheLast _, _, heard, _, _, List.replicate 512 0xFF#8, [], 0x12#8, 0x34#8, atTheLast_readyIdle _,
    by decide +revert, by decide +revert, ready_at_once, rfl, r1_on_the_last_try _, token_on_the_last_try,
    List.length_replicate, rfl⟩

theorem witness_ReadFailsWithIo :
    (∃ (s : State) (ready frameIn r1In rest : List Byte) (bits : BitVec 7), ReadyIdle s ∧
      s.dev.position.toNat < s.dev.blockCount.toNat ∧ 1 ≤ s.params.retryBudget ∧
      ReadyPoll s.params.retryBudget ready ∧ frameIn.length = 6 ∧ R1Answer s.params.retryBudget bits r1In ∧
      bits ≠ 0#7 ∧ s.card = .oracle (ready ++ frameIn ++ r1In ++ rest)) ∧
    (∃ (s : State) (ready frameIn r1In rest : List Byte), ReadyIdle s ∧
      s.dev.position.toNat < s.dev.blockCount.toNat ∧ 1 ≤ s.params.retryBudget ∧
      ReadyPoll s.params.retryBudget ready ∧ frameIn.length = 6 ∧ PollMiss s.params.retryBudget isR1 r1In ∧
      s.card = .oracle (ready ++ frameIn ++ r1In ++ rest)) ∧
    (∃ (s : State) (ready frameIn r1In tokenIn rest : List Byte), ReadyIdle s ∧
      s.dev.position.toNat < s.dev.blockCount.toNat ∧ 1 ≤ s.params.retryBudget ∧
      ReadyPoll s.params.retryBudget ready ∧ frameIn.length = 6 ∧ R1Answer s.params.retryBudget 0#7 r1In ∧
      PollMiss s.params.retryBudget isStartToken tokenIn ∧
      s.card = .oracle (ready ++ frameIn ++ r1In ++ tokenIn ++ rest)) :=
  ⟨⟨atTheLast _, _, heard, _, [], 4#7, atTheLast_readyIdle _, by decide +revert, by decide +revert,
      ready_at_once, rfl, r1_on_the_last_try _, by decide, rfl⟩,
   ⟨atTheLast _, _, heard, _, [], atTheLast_readyIdle _, by decide +revert, by decide +revert, ready_exhausted,
      rfl, r1_never, rfl⟩,
   ⟨atTheLast _, _, heard, _, _, [], atTheLast_readyIdle _, by decide +revert, by decide +revert, ready_at_once,
      rfl, r1_on_the_last_try _, token_never, rfl⟩⟩

theorem witness_WriteStores :
    ∃ (s : State) (ready frameIn r1In blockIn busyIn rest : List Byte) (d : Byte), ReadyIdle s ∧
      s.params.writeEnable = true ∧ s.dev.position.toNat < s.dev.blockCount.toNat ∧ 1 ≤ s.params.retryBudget ∧
      ReadyPoll s.params.retryBudget ready ∧ frameIn.length = 6 ∧ R1Answer s.params.retryBudget 0#7 r1In ∧
      blockIn.length = 515 ∧ d.toNat % 32 = 5 ∧ PollHit s.params.retryBudget isReady busyIn ∧
      s.card = .oracle (ready ++ frameIn ++ r1In ++ blockIn ++ [d] ++ busyIn ++ rest) :=
  ⟨atTheLast _, _, heard, _, heardBlock, _, [], 0xE5#8, atTheLast_readyIdle _, rfl, by decide +revert,
    by decide +revert, ready_at_once, rfl, r1_on_the_last_try _, heardBlock_length, by decide,
    released_on_the_last_try, rfl⟩

theorem witness_WriteFailsWithIo :
    (∃ (s : State) (ready frameIn r1In rest : List Byte) (bits : BitVec 7), ReadyIdle s ∧
      s.params.writeEnable = true ∧ s.dev.position.toNat < s.dev.blockCount.toNat ∧ 1 ≤ s.params.retryBudget ∧
      ReadyPoll s.params.retryBudget ready ∧ frameIn.length = 6 ∧ R1Answer s.params.retryBudget bits r1In ∧
      bits ≠ 0#7 ∧ s.card = .oracle (ready ++ frameIn ++ r1In ++ rest)) ∧
    (∃ (s : State) (ready frameIn r1In blockIn rest : List Byte) (d : Byte), ReadyIdle s ∧
      s.params.writeEnable = true ∧ s.dev.position.toNat < s.dev.blockCount.toNat ∧ 1 ≤ s.params.retryBudget ∧
      ReadyPoll s.params.retryBudget ready ∧ frameIn.length = 6 ∧ R1Answer s.params.retryBudget 0#7 r1In ∧
      blockIn.length = 515 ∧ d.toNat % 32 ≠ 5 ∧
      s.card = .oracle (ready ++ frameIn ++ r1In ++ blockIn ++ [d] ++ rest)) ∧
    (∃ (s : State) (ready frameIn r1In blockIn busyIn rest : List Byte) (d : Byte), ReadyIdle s ∧
      s.params.writeEnable = true ∧ s.dev.position.toNat < s.dev.blockCount.toNat ∧ 1 ≤ s.params.retryBudget ∧
      ReadyPoll s.params.retryBudget ready ∧ frameIn.length = 6 ∧ R1Answer s.params.retryBudget 0#7 r1In ∧
      blockIn.length = 515 ∧ d.toNat % 32 = 5 ∧ PollMiss s.params.retryBudget isReady busyIn ∧
      s.card = .oracle (ready ++ frameIn ++ r1In ++ blockIn ++ [d] ++ busyIn ++ rest)) :=
  ⟨⟨atTheLast _, _, heard, _, [], 1#7, atTheLast_readyIdle _, rfl, by decide +revert, by decide +revert,
      ready_at_once, rfl, r1_on_the_last_try _, by decide, rfl⟩,
   ⟨atTheLast _, _, heard, _, heardBlock, [], 0xFF#8, atTheLast_readyIdle _, rfl, by decide +revert,
      by decide +revert, ready_at_once, rfl, r1_on_the_last_try _, heardBlock_length, by decide, rfl⟩,
   ⟨atTheLast _, _, heard, _, heardBlock, _, [], 0x05#8, atTheLast_readyIdle _, rfl, by decide +revert,
      by decide +revert, ready_at_once, rfl, r1_on_the_last_try _, heardBlock_length, by decide, released_never,
      rfl⟩⟩

/-- A busy engine with a request, and an IDLE one. -/
theorem witness_OneResponseForEachRequest :
    (∀ i ∈ [Instr.seek 9#32, .read, .write Block.zero, .blocksize, .blockcount], i.context = .host) ∧
    (∃ (s : State) (r : HostRequest), busy s = true ∧ r.op ≠ 0#3) ∧
    (∃ s : State, busy s = false ∧ s.stalled = false) :=
  ⟨fun i h => by
      simp only [List.mem_cons, List.not_mem_nil, or_false] at h
      rcases h with rfl | rfl | rfl | rfl | rfl <;> rfl,
    ⟨during .opRead .rxToken false [], ⟨requestWord 1#3 9#32, Block.zero⟩, rfl, by decide⟩, ⟨idle [], rfl, rfl⟩⟩

theorem witness_FailedOperationKeepsDeviceState :
    ∃ (s t : State) (e : ErrorKind), exec (.seek 9#32) s = .next t ∧
      t.responses = s.responses ++ [.status e] ∧ e ≠ .ok :=
  ⟨failedIdle, fail .io failedIdle, .io, rfl, rfl, by decide⟩

theorem witness_HostOperationsFrame :
    (∃ s t : State, exec (.seek 9#32) s = .next t) ∧ (∃ s t : State, exec .read s = .next t) ∧
    (∃ s t : State, exec (.write Block.zero) s = .next t) :=
  ⟨⟨failedIdle, _, rfl⟩, ⟨failedIdle, _, rfl⟩, ⟨failedIdle, _, rfl⟩⟩

theorem witness_ReadAndWriteAreTheirPseudocode :
    ∃ s : State, s.phase = Phase.idle ∧ s.stalled = false := ⟨atTheLast [], rfl, rfl⟩

/-! ### Initialization -/

theorem witness_InitIsItsPseudocode :
    legalParams eight ∧ (idle []).phase.top = .idle ∧ (during .opRead .rxToken false []).phase.top = .opRead ∧
      (during .opWrite .txResp false []).phase.top = .opWrite := ⟨eight_legal, rfl, rfl, rfl⟩

theorem fresh_inv : Inv (State.fresh eight (.oracle [])) :=
  ⟨eight_legal, rfl, by decide, by decide, by decide, by decide, by decide, by decide, by decide,
    by decide, by decide, by decide, by decide, by decide, by decide, by decide, by decide,
    (fun h _ _ => by rcases h with ⟨-, h⟩ | h <;> exact absurd h (by decide)), by decide, by decide, fun _ _ => rfl, by decide, rfl⟩

theorem witness_InitEndsInOneOutcome :
    ∃ s : State, Inv s ∧ s.phase.top.inInit = true ∧ s.stalled = false := ⟨_, fresh_inv, rfl, rfl⟩

/-- A state of each row of R138 with the byte that takes it: the step after which the row's right-hand side
holds. -/
theorem witness_InitTransitionTable :
    ∀ p ∈ [(TopPhase.initReset, SubPhase.cmdR1, false, 0x01#8), (.initReset, .cmdR1, false, 0x00#8),
        (.initVoltage, .cmdR1, false, 0x05#8), (.initVoltage, .r7Bytes, false, 0xA5#8),
        (.initIdleWait, .cmdR1, false, 0x01#8), (.initIdleWait, .cmdR1, true, 0x00#8),
        (.initReadReg, .cmdR1, false, 0x05#8), (.initReadReg, .rxToken, false, 0xFE#8)],
      ∃ s t : State, Inv s ∧ s.phase.top = p.1 ∧ s.phase.top.inInit = true ∧
        s.card = .oracle [p.2.2.2] ∧ step s = .next t := by
  intro p h
  refine ⟨during p.1 p.2.1 p.2.2.1 [p.2.2.2], tick (during p.1 p.2.1 p.2.2.1 [p.2.2.2]), ?_, rfl, ?_, rfl, ?_⟩ <;>
    simp only [List.mem_cons, List.not_mem_nil, or_false] at h <;>
    rcases h with rfl | rfl | rfl | rfl | rfl | rfl | rfl | rfl <;>
    first | exact during_inv _ _ _ _ rfl | rfl

theorem witness_InitReachesReady :
    ∃ (p : Params) (y f tokenIn : List Byte) (b2 b3 : Byte) (register : Csd), legalParams p ∧
      ReadyPoll p.retryBudget y ∧ f.length = 6 ∧
      (∀ bits, ∃ a, R1Answer p.retryBudget bits a) ∧ b2.toNat % 16 = 1 ∧ b3 = 0xA5#8 ∧
      PollHit p.retryBudget isStartToken tokenIn ∧ register[0].extractLsb' 6 2 = p.csdHcStruct :=
  ⟨eight, _, heard, _, 0xF1#8, 0xA5#8, Vector.replicate 16 0x40#8, eight_legal, ready_at_once, rfl,
    fun _ => ⟨_, r1_on_the_last_try _⟩, by decide, rfl, token_on_the_last_try, by decide⟩

/-! ### The whole machine -/

theorem witness_InvAtReset : legalParams eight ∧ (Card.oracle []).wf = true := ⟨eight_legal, rfl⟩

/-- Every legal phase has a state that meets the invariant and takes a step. -/
theorem witness_StepKeepsInv (top : TopPhase) (sub : SubPhase) (acmd : Bool)
    (h : (Phase.mk top sub acmd).legal = true) : ∃ s t : State, Inv s ∧ s.phase = ⟨top, sub, acmd⟩ ∧
      step s = .next t := by
  refine ⟨during top sub acmd [], ?_⟩
  cases top
  case idle => exact ⟨_, during_inv _ _ _ _ h, rfl, rfl⟩
  all_goals exact ⟨_, during_inv _ _ _ _ h, rfl, rfl⟩

theorem atTheEnd_inv : Inv atTheEnd :=
  ⟨(idle_inv []).params, rfl, by decide, by decide, by decide, by decide, by decide, by decide, by decide,
    by decide, by decide, by decide, by decide, by decide, by decide, by decide, by decide,
    (fun _ c hc => nomatch hc), by decide, by decide, fun _ _ => rfl, by decide, rfl⟩

theorem witness_DeviceStateRules :
    ∃ s t : State, Inv s ∧ s.dev.initialized = true ∧ s.phase = Phase.idle ∧ s.dev.position = s.dev.blockCount ∧
      s.params.writeEnable = true ∧ step s = .next t ∧ s.phase.top.inInit = false :=
  ⟨atTheEnd, atTheEnd, atTheEnd_inv, rfl, rfl, rfl, rfl, rfl, rfl⟩

/-- A step that ends an accepted WRITE. -/
theorem witness_CursorMoves :
    ∃ s t : State, Inv s ∧ step s = .next t ∧ s.phase.top = .opWrite ∧ t.dev.position = 8#33 :=
  ⟨during .opWrite .txBusy false [0xFF#8], tick (during .opWrite .txBusy false [0xFF#8]),
    during_inv _ _ _ _ rfl, rfl, rfl, by decide⟩

/-- A busy engine in each place that sends something else than the filler, and an IDLE one. -/
theorem witness_SentBytes :
    (∀ p ∈ [(TopPhase.initReset, SubPhase.cmdFrame), (.opWrite, .txToken), (.opWrite, .txPayload),
        (.opRead, .rxToken)],
      ∃ s t : State, Inv s ∧ step s = .next t ∧ busy s = true ∧ s.phase.sub = p.2) ∧
    (∃ s t : State, Inv s ∧ step s = .next t ∧ busy s = false) := by
  refine ⟨fun p h => ?_, idle [], idle [], idle_inv [], rfl, rfl⟩
  refine ⟨during p.1 p.2 false [], tick (during p.1 p.2 false []), ?_, ?_, ?_, rfl⟩ <;>
    simp only [List.mem_cons, List.not_mem_nil, or_false] at h <;>
    rcases h with rfl | rfl | rfl | rfl <;> first | exact during_inv _ _ _ _ rfl | rfl

/-- A listed answer and a constant card that give the same byte. -/
theorem witness_NextStepDependsOnTheByteOnly :
    ∃ (s : State) (card : Card) (i : Byte), cardByte s = i ∧ cardByte { s with card := card, draws := 3 } = i ∧
      busy s = true ∧ s.card ≠ card :=
  ⟨during .opRead .rxToken false [0xFE#8], .constant 0xFE#8, 0xFE#8, rfl, rfl, rfl, by decide⟩

/-- The command is prepared, its first exchange made, its frame sent, its R1 awaited. -/
theorem witness_SectorsSentAreInRange :
    ∀ top ∈ [TopPhase.opRead, .opWrite],
      (∀ sub ∈ [SubPhase.cmdReady, .cmdFrame, .cmdR1], ∃ s : State, Inv s ∧ s.phase.top = top ∧
        s.phase.sub = sub ∧ s.phase.sub.inCommand = true) ∧
      (∃ s t : State, Inv s ∧ step s = .next t ∧ t.phase.top = top ∧ t.phase.sub = .cmdReady ∧ t.n ≠ 0) := by
  intro top h
  simp only [List.mem_cons, List.not_mem_nil, or_false] at h
  refine ⟨fun sub hs => ?_, during top .cmdReady false [0x00#8], tick (during top .cmdReady false [0x00#8]), ?_⟩
  · simp only [List.mem_cons, List.not_mem_nil, or_false] at hs
    refine ⟨during top sub false [], during_inv _ _ _ _ ?_, rfl, rfl, ?_⟩ <;>
      rcases h with rfl | rfl <;> rcases hs with rfl | rfl | rfl <;> rfl
  · rcases h with rfl | rfl <;> exact ⟨during_inv _ _ _ _ rfl, rfl, by decide, by decide, by decide⟩

theorem witness_ExchangeBounds :
    ∃ s : State, s.stalled = false ∧ legalParams s.params ∧ s.phase = Phase.idle :=
  ⟨idle [], rfl, eight_legal, rfl⟩

theorem witness_NoHaltEver :
    (∃ s : State, s.stalled = false ∧ s.request = none ∧ s.phase.legal = true ∧ legalParams s.params ∧
      s.phase.top.inInit = true) ∧
    (∃ s : State, s.stalled = false ∧ s.request = none ∧ s.phase.legal = true ∧ legalParams s.params ∧
      s.phase.top.inInit = false ∧ busy s = true) :=
  ⟨⟨State.fresh eight (.oracle []), rfl, rfl, rfl, eight_legal, rfl⟩,
   ⟨during .opWrite .cmdReady false [], rfl, rfl, rfl, eight_legal, rfl, rfl⟩⟩

/-- A stuck engine, and an IDLE one that can still answer a SEEK. -/
theorem witness_StuckInAnExchange :
    (∃ s : State, s.stalled = true ∧ busy s = true ∧ s.request = none) ∧
    (∃ s t : State, s.stalled = true ∧ step s = .next t) :=
  ⟨⟨{ during .opRead .rxToken false [] with stalled := true }, rfl, rfl, rfl⟩,
   ⟨{ asking 1#3 9#32 [] with stalled := true }, _, rfl, rfl⟩⟩

/-- The mock card of P3. -/
def mockP3 : Mock :=
  Mock.fresh (Vector.replicate 16 0x40#8) 0 1 1 #v[0x00#8, 0x00#8, 0x01#8, 0xA5#8] 0xE5#8 2 []

theorem witness_MockStoreLaws :
    (∃ (m : Memory) (bytes : List Byte), Memory.wf m = true ∧ bytes.length = 512) ∧
    (∃ (m : Mock) (sector : Nat) (bytes : List Byte), m.capture = .collecting sector bytes ∧
      bytes.length ≠ 513) :=
  ⟨⟨[(512, 0x01#8)], List.replicate 512 0x02#8, by decide, List.length_replicate⟩,
   ⟨{ mockP3 with capture := .collecting 5 [] }, 5, [], rfl, by decide⟩⟩

theorem witness_ReadAfterWrite :
    ∃ (s : State) (m : Mock) (sector : BitVec 32), ReadyIdle s ∧ s.params.writeEnable = true ∧
      sector.toNat < s.dev.blockCount.toNat ∧ s.card = .mock m ∧ Memory.wf m.store = true ∧ m.queue = [] ∧
      m.collected = [] ∧ m.capture = .off ∧ m.overrides = [] ∧ m.wresp &&& 0x1F#8 = 0x05#8 ∧
      m.ncr < s.params.retryBudget ∧ m.nac < s.params.retryBudget ∧ m.busy < s.params.retryBudget :=
  ⟨{ idle [] with card := .mock mockP3 }, mockP3, 5#32, ⟨rfl, rfl, rfl⟩, rfl, by decide, rfl, rfl, rfl, rfl, rfl,
    rfl, by decide, by decide, by decide, by decide⟩

end Sys2Proof.Tests
end

section
/-! What accepting a host request can do (R176 to R182), and the Device State once initialization has
ended (R27). -/

namespace Sys2Proof.Machine

/-! ## The acceptance of a host request, case by case -/

/-- Everything the acceptance of a host operation can do. -/
inductive StartsTo (s : State) : Instr → State → Prop where
  | seekUnready (sector : BitVec 32) (dev : s.dev.initialized = false) :
      StartsTo s (.seek sector) (fail .io s)
  | seekBeyond (sector : BitVec 32) (dev : s.dev.initialized = true)
      (range : s.dev.blockCount ≤ seekSector sector) : StartsTo s (.seek sector) (fail .outOfBounds s)
  | seekMoves (sector : BitVec 32) (dev : s.dev.initialized = true)
      (range : seekSector sector < s.dev.blockCount) :
      StartsTo s (.seek sector) (respond (.status .ok) (setPosition (seekSector sector) s))
  | readUnready (dev : s.dev.initialized = false) : StartsTo s .read (fail .io s)
  | readAtEnd (dev : s.dev.initialized = true) (range : s.dev.blockCount ≤ s.dev.position) :
      StartsTo s .read (fail .outOfBounds s)
  | readBegins (dev : s.dev.initialized = true) (range : s.dev.position < s.dev.blockCount) :
      StartsTo s .read (startCommand .opRead false s)
  | writeUnready (payload : Block) (dev : s.dev.initialized = false) :
      StartsTo s (.write payload) (fail .io s)
  | writeDisabled (payload : Block) (dev : s.dev.initialized = true)
      (enable : s.params.writeEnable = false) : StartsTo s (.write payload) (fail .notWritable s)
  | writeAtEnd (payload : Block) (dev : s.dev.initialized = true)
      (enable : s.params.writeEnable = true) (range : s.dev.blockCount ≤ s.dev.position) :
      StartsTo s (.write payload) (fail .outOfBounds s)
  | writeBegins (payload : Block) (dev : s.dev.initialized = true)
      (enable : s.params.writeEnable = true) (range : s.dev.position < s.dev.blockCount) :
      StartsTo s (.write payload) (startCommand .opWrite false { s with txData := some payload })
  | blockSizeKnown (dev : s.dev.initialized = true) :
      StartsTo s .blocksize (respond (.number s.dev.blockSize) s)
  | blockSizeFree (dev : s.dev.initialized = false) :
      StartsTo s .blocksize (respond (.number (Config.freeBlockSize s.draws)) (countDraw s))
  | blockCountKnown (dev : s.dev.initialized = true) :
      StartsTo s .blockcount (respond (.number s.dev.blockCount) s)
  | blockCountFree (dev : s.dev.initialized = false) :
      StartsTo s .blockcount (respond (.number (Config.freeBlockCount s.draws)) (countDraw s))

theorem outOfRange_iff (x count : Sector) : outOfRange x count = true ↔ count ≤ x := by
  simp [outOfRange]

theorem startSeek_startsTo (sector : BitVec 32) (s : State) :
    StartsTo s (.seek sector) (startSeek sector s) := by
  unfold startSeek
  split <;> rename_i hi
  · exact .seekUnready sector (by simpa using hi)
  · split <;> rename_i hr <;> rw [outOfRange_iff] at hr
    · exact .seekBeyond sector (by simpa using hi) hr
    · exact .seekMoves sector (by simpa using hi) (BitVec.not_le.mp hr)

theorem startRead_startsTo (s : State) : StartsTo s .read (startRead s) := by
  unfold startRead
  split <;> rename_i hi
  · exact .readUnready (by simpa using hi)
  · split <;> rename_i hr <;> rw [outOfRange_iff] at hr
    · exact .readAtEnd (by simpa using hi) hr
    · exact .readBegins (by simpa using hi) (BitVec.not_le.mp hr)

theorem startWrite_startsTo (payload : Block) (s : State) :
    StartsTo s (.write payload) (startWrite payload s) := by
  unfold startWrite
  split <;> rename_i hi
  · exact .writeUnready payload (by simpa using hi)
  · split <;> rename_i hw
    · exact .writeDisabled payload (by simpa using hi) (by simpa using hw)
    · split <;> rename_i hr <;> rw [outOfRange_iff] at hr
      · exact .writeAtEnd payload (by simpa using hi) (by simpa using hw) hr
      · exact .writeBegins payload (by simpa using hi) (by simpa using hw) (BitVec.not_le.mp hr)

theorem startBlockSize_startsTo (s : State) : StartsTo s .blocksize (startBlockSize s) := by
  unfold startBlockSize
  split <;> rename_i hi
  · exact .blockSizeKnown hi
  · exact .blockSizeFree (by simpa using hi)

theorem startBlockCount_startsTo (s : State) : StartsTo s .blockcount (startBlockCount s) := by
  unfold startBlockCount
  split <;> rename_i hi
  · exact .blockCountKnown hi
  · exact .blockCountFree (by simpa using hi)

/-- The acceptance of a host operation does one of the things listed. -/
theorem startRequest_startsTo {i : Instr} (s : State) (h : i.context = .host) :
    StartsTo s i (startRequest i s) := by
  cases i with
  | seek sector => exact startSeek_startsTo sector s
  | read => exact startRead_startsTo s
  | write payload => exact startWrite_startsTo payload s
  | blocksize => exact startBlockSize_startsTo s
  | blockcount => exact startBlockCount_startsTo s
  | _ => cases h

/-- An operation that is accepted and goes on is at the ready poll of its command (R110). -/
theorem StartsTo.sub_of_busy {i : Instr} {s t : State} (h : StartsTo s i t)
    (hb : busy t = true) : t.phase.sub = .cmdReady := by
  cases h with
  | readBegins => rfl
  | writeBegins => rfl
  | _ => cases hb

/-! ## The Device State after initialization (R27 d) -/

/-- Initialization is not in progress in `t`, and the Device State is that of `s` but for the cursor. -/
structure KeepsDevice (s t : State) : Prop where
  ended : t.phase.top.inInit = false
  dev : t.dev = { s.dev with position := t.dev.position }

theorem KeepsDevice.trans {s t u : State} (h : KeepsDevice s t) (g : KeepsDevice t u) :
    KeepsDevice s u :=
  ⟨g.ended, by rw [g.dev, h.dev]⟩

theorem KeepsDevice.of_dev_eq {s t : State} (ended : t.phase.top.inInit = false) (dev : t.dev = s.dev) :
    KeepsDevice s t :=
  ⟨ended, by rw [dev]⟩

/-- Only the callers of INIT write more of the Device State than the cursor. -/
theorem ResumesTo.keepsDevice {sub : SubPhase} {v t : State} (h : ResumesTo sub v t)
    (hv : v.phase.top.inInit = false) : KeepsDevice v t := by
  cases h with
  | readAnswered | writeAnswered => exact ⟨hv, rfl⟩
  | readRefused | readDelivered | readMissing => exact ⟨rfl, rfl⟩
  | writeRefused | writeStored | writeFailed => exact ⟨rfl, rfl⟩
  | abandoned => exact ⟨rfl, rfl⟩
  | _ top => rw [top] at hv; cases hv

theorem engineStep_keepsDevice {s : State} (i : Byte) (hb : busy s = true) (hs : s.phase.sub ≠ .none)
    (hi : s.phase.top.inInit = false) : KeepsDevice s (engineStep i s) := by
  obtain ⟨f, v, -, -, hreact, hv⟩ := engineStep_cases i hb hs
  have hkept := hreact.frame_kept
  have hsv : KeepsDevice s v := .of_dev_eq (by rw [hkept.top]; exact hi) hkept.dev
  rcases hv with ⟨-, he⟩ | ⟨-, hresume⟩
  · rw [he]; exact hsv
  · exact hsv.trans (hresume.keepsDevice hsv.ended)

theorem tick_keepsDevice {s : State} (hb : busy s = true) (hs : s.phase.sub ≠ .none)
    (hi : s.phase.top.inInit = false) : KeepsDevice s (tick s) := by
  rw [tick_busy hb]
  have h := engineStep_keepsDevice (s := cardMoves s) (cardByte s) hb hs hi
  exact ⟨h.ended, h.dev⟩

theorem StartsTo.keepsDevice {i : Instr} {s t : State} (h : StartsTo s i t) : KeepsDevice s t := by
  cases h <;> exact ⟨rfl, rfl⟩

theorem inInit_of_not_busy {s : State} (hb : busy s = false) : s.phase.top.inInit = false := by
  rw [(not_busy_iff s).mp hb]; rfl

/-- R27 (d): initialization never runs again, and of the Device State only the cursor can change. -/
theorem step_keepsDevice {s t : State} (hl : s.phase.legal = true) (hi : s.phase.top.inInit = false)
    (h : step s = .next t) : KeepsDevice s t := by
  rcases step_cases h with ⟨hb, -, -, rfl⟩ | ⟨hb, u, hu, ht⟩
  · exact tick_keepsDevice hb (sub_ne_none hb hl) hi
  · have hsu : KeepsDevice s u := by
      rcases hu with rfl | rfl | ⟨r, rest, -, rfl⟩ <;> exact ⟨hi, rfl⟩
    rcases ht with rfl | ⟨i, hhost, ht⟩
    · exact hsu
    · have hstart := startRequest_startsTo u hhost
      have hstarted := hsu.trans hstart.keepsDevice
      rcases ht with ⟨-, rfl⟩ | ⟨hbusy, -, rfl⟩
      · exact hstarted
      · have hsub : (startRequest i u).phase.sub ≠ .none := by simp [hstart.sub_of_busy hbusy]
        exact hstarted.trans (tick_keepsDevice hbusy hsub hstarted.ended)

/-! ## A cursor at the sector count (R27 c) -/

theorem exec_read (s : State) : exec .read s = whenIdle s (complete s (startRead s)) := rfl

theorem exec_write (payload : Block) (s : State) :
    exec (.write payload) s = whenIdle s (complete s (startWrite payload s)) := rfl

/-- An error taken by an IDLE engine changes nothing but the responses. -/
theorem fail_of_idle (e : ErrorKind) {s : State} (h : s.phase = Phase.idle) :
    fail e s = { s with responses := s.responses ++ [.status e] } := by
  rw [fail, respond, ← h]

theorem startRead_atEnd {s : State} (hi : s.dev.initialized = true)
    (hr : s.dev.blockCount ≤ s.dev.position) : startRead s = fail .outOfBounds s := by
  simp [startRead, hi, outOfRange, hr]

theorem startWrite_atEnd (payload : Block) {s : State} (hi : s.dev.initialized = true)
    (hw : s.params.writeEnable = true) (hr : s.dev.blockCount ≤ s.dev.position) :
    startWrite payload s = fail .outOfBounds s := by
  simp [startWrite, hi, hw, outOfRange, hr]

/-- A request that fails when an IDLE engine accepts it has only that response. -/
theorem whenIdle_complete_fail (e : ErrorKind) {s : State} (h : s.phase = Phase.idle) :
    whenIdle s (complete s (fail e s)) =
      .next { s with responses := s.responses ++ [.status e] } := by
  have hb : busy s = false := by rw [not_busy_iff, h]; rfl
  have hf : busy (fail e s) = false := rfl
  simp only [whenIdle, hb, complete, hf, Bool.false_eq_true, if_false]
  rw [fail_of_idle e h]

/-- Settles O51: (a) and (b) are clauses of the invariant, (c) is the range check of READ and WRITE, (d) is
`step_keepsDevice`. -/
theorem deviceStateRules : Obligations.DeviceStateRules := by
  intro s hinv
  refine ⟨fun hi => ⟨hinv.blockSize hi, BitVec.le_def.mp (hinv.position hi)⟩, ?_, ?_⟩
  · intro payload hidle hi hcursor hw
    have hr : s.dev.blockCount ≤ s.dev.position := by rw [hcursor]; exact BitVec.le_refl _
    constructor
    · rw [exec_read, startRead_atEnd hi hr, whenIdle_complete_fail _ hidle]
    · rw [exec_write, startWrite_atEnd payload hi hw hr, whenIdle_complete_fail _ hidle]
  · intro t hstep hi
    obtain ⟨hended, hdev⟩ := step_keepsDevice hinv.phase hi hstep
    exact ⟨hended, hdev⟩

end Sys2Proof.Machine
end

section
/-! R51: what the engine does with the byte of an exchange does not depend on the rest of the world, and R58: a
sector that is sent is in range. -/

namespace Sys2Proof.Machine

/-! ## The same engine in another run (R51) -/

/-- The same engine with another card, other free values taken and another record behind it. -/
def inRun (card : Card) (draws : Nat) (history : List (Byte × Byte)) (responses : List Response)
    (s : State) : State :=
  { s with card := card, draws := draws, history := history, responses := responses }

/-- `f` reads nothing of the run the engine stands in: in every run it does to `s` the same, and adds the same
responses. -/
def IgnoresRun (f : State → State) (s : State) : Prop :=
  ∃ added, ∀ card draws history responses,
    f (inRun card draws history responses s) = inRun card draws history (responses ++ added) (f s)

theorem IgnoresRun.silent {f : State → State} {s : State}
    (h : ∀ card draws history responses,
      f (inRun card draws history responses s) = inRun card draws history responses (f s)) :
    IgnoresRun f s :=
  ⟨[], fun c d hs r => by rw [List.append_nil, h]⟩

theorem IgnoresRun.responds {f : State → State} {s : State} (response : Response)
    (h : ∀ card draws history responses, f (inRun card draws history responses s) =
      inRun card draws history (responses ++ [response]) (f s)) : IgnoresRun f s :=
  ⟨[response], h⟩

theorem IgnoresRun.ite {p : State → Prop} [∀ s, Decidable (p s)] {f g : State → State} {s : State}
    (test : ∀ card draws history responses, p (inRun card draws history responses s) = p s)
    (hf : IgnoresRun f s) (hg : IgnoresRun g s) : IgnoresRun (fun s => if p s then f s else g s) s := by
  by_cases h : p s
  · obtain ⟨added, hf⟩ := hf
    exact ⟨added, fun c d hs r => by simp only [test, h, if_true, hf]⟩
  · obtain ⟨added, hg⟩ := hg
    exact ⟨added, fun c d hs r => by simp only [test, h, if_false, hg]⟩

theorem IgnoresRun.congr {f g : State → State} {s : State} (hg : IgnoresRun g s)
    (h : ∀ card draws history responses,
      f (inRun card draws history responses s) = g (inRun card draws history responses s)) :
    IgnoresRun f s := by
  have hs : f s = g s := h s.card s.draws s.history s.responses
  obtain ⟨added, hg⟩ := hg
  exact ⟨added, fun c d hs' r => by rw [h, hg, hs]⟩

/-! ### The callers -/

theorem afterReset_ignoresRun (s : State) : IgnoresRun afterReset s :=
  .ite (fun _ _ _ _ => rfl) (.silent fun _ _ _ _ => rfl) (.silent fun _ _ _ _ => rfl)

theorem afterInterfaceCondition_ignoresRun (s : State) : IgnoresRun afterInterfaceCondition s :=
  .ite (fun _ _ _ _ => rfl) (.silent fun _ _ _ _ => rfl) (.silent fun _ _ _ _ => rfl)

theorem afterReply_ignoresRun (s : State) : IgnoresRun afterReply s :=
  .ite (fun _ _ _ _ => rfl) (.silent fun _ _ _ _ => rfl) (.silent fun _ _ _ _ => rfl)

theorem afterPrefix_ignoresRun (s : State) : IgnoresRun afterPrefix s :=
  .ite (fun _ _ _ _ => rfl) (.silent fun _ _ _ _ => rfl) (.silent fun _ _ _ _ => rfl)

theorem afterIdleWait_ignoresRun (s : State) : IgnoresRun afterIdleWait s :=
  .ite (fun _ _ _ _ => rfl) (.silent fun _ _ _ _ => rfl)
    (.ite (fun _ _ _ _ => rfl) (.silent fun _ _ _ _ => rfl)
      (.ite (fun _ _ _ _ => rfl) (.silent fun _ _ _ _ => rfl) (.silent fun _ _ _ _ => rfl)))

theorem afterReadRegister_ignoresRun (s : State) : IgnoresRun afterReadRegister s :=
  .ite (fun _ _ _ _ => rfl) (.silent fun _ _ _ _ => rfl) (.silent fun _ _ _ _ => rfl)

theorem afterReadCommand_ignoresRun (s : State) : IgnoresRun afterReadCommand s :=
  .ite (fun _ _ _ _ => rfl) (.silent fun _ _ _ _ => rfl) (.responds (.status .io) fun _ _ _ _ => rfl)

theorem afterReadBlock_ignoresRun (s : State) : IgnoresRun afterReadBlock s :=
  .ite (fun _ _ _ _ => rfl) (.responds (.data s.rxData) fun _ _ _ _ => rfl)
    (.responds (.status .io) fun _ _ _ _ => rfl)

theorem afterWriteCommand_ignoresRun (s : State) : IgnoresRun afterWriteCommand s :=
  .ite (fun _ _ _ _ => rfl) (.silent fun _ _ _ _ => rfl) (.responds (.status .io) fun _ _ _ _ => rfl)

theorem afterWriteBlock_ignoresRun (s : State) : IgnoresRun afterWriteBlock s :=
  .ite (fun _ _ _ _ => rfl) (.responds (.status .ok) fun _ _ _ _ => rfl)
    (.responds (.status .io) fun _ _ _ _ => rfl)

theorem abandon_ignoresRun (s : State) : IgnoresRun abandon s := .silent fun _ _ _ _ => rfl

theorem latchCsd_inRun (card : Card) (draws : Nat) (history : List (Byte × Byte))
    (responses : List Response) (s : State) :
    latchCsd (inRun card draws history responses s) = inRun card draws history responses (latchCsd s) := by
  unfold latchCsd
  split <;> rename_i h
  · have h' : s.rxData.length = 16 := h
    rw [dif_pos h']; rfl
  · have h' : s.rxData.length ≠ 16 := h
    rw [dif_neg h']

theorem decodeRegisterLatch_ignoresRun (s : State) : IgnoresRun decodeRegisterLatch s := by
  cases h : csdDecode s.params s.csd with
  | none =>
    exact .congr (g := doneInit .unsupported) (.silent fun _ _ _ _ => rfl)
      fun _ _ _ _ => by simp [decodeRegisterLatch, inRun, h]
  | some count =>
    exact .congr (g := becomeReady count) (.silent fun _ _ _ _ => rfl)
      fun _ _ _ _ => by simp [decodeRegisterLatch, inRun, h]

theorem afterRegisterBlock_ignoresRun (s : State) : IgnoresRun afterRegisterBlock s := by
  obtain ⟨added, h⟩ := decodeRegisterLatch_ignoresRun (latchCsd s)
  exact .ite (fun _ _ _ _ => rfl)
    ⟨added, fun c d hs r => by simp only [latchCsd_inRun, h]⟩ (.silent fun _ _ _ _ => rfl)

theorem afterCommand_ignoresRun (s : State) : IgnoresRun afterCommand s := by
  cases h : s.phase.top with
  | initReset => exact (afterReset_ignoresRun s).congr fun _ _ _ _ => by simp [afterCommand, inRun, h]
  | initVoltage =>
    exact (afterInterfaceCondition_ignoresRun s).congr fun _ _ _ _ => by simp [afterCommand, inRun, h]
  | initIdleWait =>
    exact (IgnoresRun.ite (p := fun s => s.phase.acmd = true) (fun _ _ _ _ => rfl)
      (afterIdleWait_ignoresRun s) (afterPrefix_ignoresRun s)).congr
      fun _ _ _ _ => by simp [afterCommand, inRun, h]
  | initReadReg =>
    exact (afterReadRegister_ignoresRun s).congr fun _ _ _ _ => by simp [afterCommand, inRun, h]
  | opRead => exact (afterReadCommand_ignoresRun s).congr fun _ _ _ _ => by simp [afterCommand, inRun, h]
  | opWrite => exact (afterWriteCommand_ignoresRun s).congr fun _ _ _ _ => by simp [afterCommand, inRun, h]
  | idle => exact (abandon_ignoresRun s).congr fun _ _ _ _ => by simp [afterCommand, inRun, h]

theorem afterReceive_ignoresRun (s : State) : IgnoresRun afterReceive s := by
  cases h : s.phase.top with
  | initReadReg =>
    exact (afterRegisterBlock_ignoresRun s).congr fun _ _ _ _ => by simp [afterReceive, inRun, h]
  | opRead => exact (afterReadBlock_ignoresRun s).congr fun _ _ _ _ => by simp [afterReceive, inRun, h]
  | _ => exact (abandon_ignoresRun s).congr fun _ _ _ _ => by simp [afterReceive, inRun, h]

theorem afterTransmit_ignoresRun (s : State) : IgnoresRun afterTransmit s := by
  cases h : s.phase.top with
  | opWrite => exact (afterWriteBlock_ignoresRun s).congr fun _ _ _ _ => by simp [afterTransmit, inRun, h]
  | _ => exact (abandon_ignoresRun s).congr fun _ _ _ _ => by simp [afterTransmit, inRun, h]

theorem afterReplyBytes_ignoresRun (s : State) : IgnoresRun afterReplyBytes s := by
  cases h : s.phase.top with
  | initVoltage => exact (afterReply_ignoresRun s).congr fun _ _ _ _ => by simp [afterReplyBytes, inRun, h]
  | _ => exact (abandon_ignoresRun s).congr fun _ _ _ _ => by simp [afterReplyBytes, inRun, h]

theorem returnFrom_ignoresRun (sub : SubPhase) (s : State) : IgnoresRun (returnFrom sub) s := by
  cases sub with
  | cmdReady | cmdFrame | cmdR1 => exact afterCommand_ignoresRun s
  | r7Bytes => exact afterReplyBytes_ignoresRun s
  | rxToken | rxPayload | rxCrc => exact afterReceive_ignoresRun s
  | txToken | txPayload | txCrc | txResp | txBusy => exact afterTransmit_ignoresRun s
  | none => exact abandon_ignoresRun s

/-! ### The exchange -/

theorem pollStep_ignoresRun (hit : Bool) {f g : State → State} {s : State}
    (hf : IgnoresRun (fun s => f { s with n := s.n + 1 }) s)
    (hg : IgnoresRun (fun s => g { s with n := s.n + 1 }) s) : IgnoresRun (pollStep hit f g) s :=
  .ite (fun _ _ _ _ => rfl) hf (.ite (fun _ _ _ _ => rfl) hg (.silent fun _ _ _ _ => rfl))

theorem runStep_ignoresRun (length : Nat) {f : State → State} {s : State} (hf : IgnoresRun f s) :
    IgnoresRun (runStep length f) s :=
  .ite (fun _ _ _ _ => rfl) hf (.silent fun _ _ _ _ => rfl)

theorem reactReady_ignoresRun (i : Byte) (s : State) : IgnoresRun (reactReady i) s :=
  pollStep_ignoresRun _ (.silent fun _ _ _ _ => rfl) (.silent fun _ _ _ _ => rfl)

theorem reactFrame_ignoresRun (s : State) : IgnoresRun reactFrame s :=
  runStep_ignoresRun _ (.silent fun _ _ _ _ => rfl)

theorem reactR1_ignoresRun (i : Byte) (s : State) : IgnoresRun (reactR1 i) s :=
  pollStep_ignoresRun _ (.silent fun _ _ _ _ => rfl) (.silent fun _ _ _ _ => rfl)

theorem reactReply_ignoresRun (i : Byte) (s : State) : IgnoresRun (reactReply i) s :=
  .ite (fun _ _ _ _ => rfl) (.silent fun _ _ _ _ => rfl) (.silent fun _ _ _ _ => rfl)

theorem reactToken_ignoresRun (i : Byte) (s : State) : IgnoresRun (reactToken i) s :=
  pollStep_ignoresRun _ (.silent fun _ _ _ _ => rfl) (.silent fun _ _ _ _ => rfl)

theorem reactPayload_ignoresRun (length : Nat) (i : Byte) (s : State) :
    IgnoresRun (reactPayload length i) s :=
  .ite (fun _ _ _ _ => rfl) (.silent fun _ _ _ _ => rfl) (.silent fun _ _ _ _ => rfl)

theorem reactRxCrc_ignoresRun (s : State) : IgnoresRun reactRxCrc s :=
  runStep_ignoresRun _ (.silent fun _ _ _ _ => rfl)

theorem reactTxPayload_ignoresRun (s : State) : IgnoresRun reactTxPayload s :=
  runStep_ignoresRun _ (.silent fun _ _ _ _ => rfl)

theorem reactTxCrc_ignoresRun (s : State) : IgnoresRun reactTxCrc s :=
  runStep_ignoresRun _ (.silent fun _ _ _ _ => rfl)

theorem reactResponse_ignoresRun (i : Byte) (s : State) : IgnoresRun (reactResponse i) s :=
  .ite (fun _ _ _ _ => rfl) (.silent fun _ _ _ _ => rfl) (.silent fun _ _ _ _ => rfl)

theorem reactBusy_ignoresRun (i : Byte) (s : State) : IgnoresRun (reactBusy i) s :=
  pollStep_ignoresRun _ (.silent fun _ _ _ _ => rfl) (.silent fun _ _ _ _ => rfl)

theorem react_ignoresRun (length : Nat) (i : Byte) (s : State) : IgnoresRun (react length i) s := by
  cases h : s.phase.sub with
  | none => exact (IgnoresRun.silent (f := id) fun _ _ _ _ => rfl).congr fun _ _ _ _ => by simp [react, inRun, h]
  | cmdReady => exact (reactReady_ignoresRun i s).congr fun _ _ _ _ => by simp [react, inRun, h]
  | cmdFrame => exact (reactFrame_ignoresRun s).congr fun _ _ _ _ => by simp [react, inRun, h]
  | cmdR1 => exact (reactR1_ignoresRun i s).congr fun _ _ _ _ => by simp [react, inRun, h]
  | r7Bytes => exact (reactReply_ignoresRun i s).congr fun _ _ _ _ => by simp [react, inRun, h]
  | rxToken => exact (reactToken_ignoresRun i s).congr fun _ _ _ _ => by simp [react, inRun, h]
  | rxPayload => exact (reactPayload_ignoresRun length i s).congr fun _ _ _ _ => by simp [react, inRun, h]
  | rxCrc => exact (reactRxCrc_ignoresRun s).congr fun _ _ _ _ => by simp [react, inRun, h]
  | txToken =>
    exact (IgnoresRun.silent (f := reactTxToken) fun _ _ _ _ => rfl).congr
      fun _ _ _ _ => by simp [react, inRun, h]
  | txPayload => exact (reactTxPayload_ignoresRun s).congr fun _ _ _ _ => by simp [react, inRun, h]
  | txCrc => exact (reactTxCrc_ignoresRun s).congr fun _ _ _ _ => by simp [react, inRun, h]
  | txResp => exact (reactResponse_ignoresRun i s).congr fun _ _ _ _ => by simp [react, inRun, h]
  | txBusy => exact (reactBusy_ignoresRun i s).congr fun _ _ _ _ => by simp [react, inRun, h]

theorem latchFrame_inRun (card : Card) (draws : Nat) (history : List (Byte × Byte))
    (responses : List Response) (s : State) :
    latchFrame (inRun card draws history responses s) = inRun card draws history responses (latchFrame s) := by
  have hcommand : commandOf (inRun card draws history responses s) = commandOf s := rfl
  by_cases h : s.phase.sub = .cmdReady ∧ s.n = 0
  · have h' : (inRun card draws history responses s).phase.sub = .cmdReady ∧
      (inRun card draws history responses s).n = 0 := h
    simp only [latchFrame, if_pos h, if_pos h', hcommand]
    cases commandOf s <;> rfl
  · have h' : ¬ ((inRun card draws history responses s).phase.sub = .cmdReady ∧
      (inRun card draws history responses s).n = 0) := h
    simp only [latchFrame, if_neg h, if_neg h']

/-! ### The engine step -/

theorem IgnoresRun.comp {f g : State → State} {s : State} (hg : IgnoresRun g (f s)) (hf : IgnoresRun f s) :
    IgnoresRun (fun s => g (f s)) s := by
  obtain ⟨a, hf⟩ := hf
  obtain ⟨b, hg⟩ := hg
  exact ⟨a ++ b, fun c d hs r => by simp only [hf, hg, List.append_assoc]⟩

/-- An engine step once its pair is recorded: the procedure takes the byte, and when that ends it, its caller
goes on. -/
def reactAndReturn (sub : SubPhase) (length : Nat) (i : Byte) (s : State) : State :=
  if (react length i s).phase.sub = .none then returnFrom sub (react length i s) else react length i s

theorem reactAndReturn_ignoresRun (sub : SubPhase) (length : Nat) (i : Byte) (s : State) :
    IgnoresRun (reactAndReturn sub length i) s :=
  .comp (g := fun t => if t.phase.sub = .none then returnFrom sub t else t)
    (.ite (fun _ _ _ _ => rfl) (returnFrom_ignoresRun sub _) (.silent fun _ _ _ _ => rfl))
    (react_ignoresRun length i s)

theorem engineStep_eq_reactAndReturn (i : Byte) {s : State} (hb : busy s = true) :
    engineStep i s =
      reactAndReturn s.phase.sub (rxLength s.phase.top) i (record (outByte s) i (latchFrame s)) := by
  rw [engineStep_busy i hb, exchange, outByte_latchFrame, reactAndReturn]

/-- R51: an engine step is the same in every run, but for the pair that joins the record of that run. -/
theorem engineStep_inRun (i : Byte) {s : State} (hb : busy s = true) :
    ∃ added, ∀ card draws history responses,
      engineStep i (inRun card draws history responses s) =
        inRun card draws (history ++ [(outByte s, i)]) (responses ++ added) (engineStep i s) := by
  obtain ⟨added, h⟩ := reactAndReturn_ignoresRun s.phase.sub (rxLength s.phase.top) i
    (record (outByte s) i (latchFrame s))
  refine ⟨added, fun c d hs r => ?_⟩
  rw [engineStep_eq_reactAndReturn i hb, ← h, engineStep_eq_reactAndReturn i (by exact hb), latchFrame_inRun]
  rfl

/-- R51, against the card: the byte received is all that the step takes from it. -/
theorem tick_inRun {s : State} (hb : busy s = true) :
    ∃ added, ∀ card draws history responses,
      cardByte (inRun card draws history responses s) = cardByte s →
      ∃ card' draws', tick (inRun card draws history responses s) =
        inRun card' draws' (history ++ [(outByte s, cardByte s)]) (responses ++ added) (tick s) := by
  obtain ⟨added, h⟩ := engineStep_inRun (cardByte s) (s := cardMoves s) hb
  refine ⟨added, fun c d hs r hi =>
    ⟨(cardMoves (inRun c d hs r s)).card, (cardMoves (inRun c d hs r s)).draws, ?_⟩⟩
  rw [tick_busy hb, tick_busy (by exact hb), hi]
  exact h _ _ hs r

/-- Settles O54: both steps are `tick`, which takes from the run the engine stands in the byte received, and
nothing else. -/
theorem nextStepDependsOnTheByteOnly : Obligations.NextStepDependsOnTheByteOnly := by
  intro s card draws history responses i hi hi' hb
  subst hi
  have hstep : ∀ u : State, busy u = true → u.request = none → u.stalled = false → step u = .next (tick u) :=
    fun u hb hr hl => step_busy hb (presented_eq_none_of_request hr) hl
  obtain ⟨added, h⟩ := tick_inRun (s := { s with request := none, stalled := false }) hb
  obtain ⟨_, _, hown⟩ := h s.card s.draws s.history s.responses rfl
  obtain ⟨card', draws', hother⟩ := h card draws history responses hi'
  refine ⟨_, added, hstep _ hb rfl rfl, congrArg State.responses hown, card', draws', ?_⟩
  rw [hstep _ (by exact hb) rfl rfl]
  exact congrArg Host.Outcome.next hother

/-! ## The sectors that are sent (R58) -/

/-- The argument of a frame, read back from its four bytes (R53 a, R71). -/
theorem ofBe32_frame (c : Command) :
    ofBe32 c.frame[1] c.frame[2] c.frame[3] c.frame[4] = c.arg := ofBe32_be32 c.arg

/-- The low 32 bits of a cursor below a sector count of at most 2^32 are the cursor (R25, R121, R122). -/
theorem sectorArgument_toNat {s : State} (h : s.dev.position.toNat < 2 ^ 32) :
    (sectorArgument s).toNat = s.dev.position.toNat := by
  rw [sectorArgument, BitVec.extractLsb'_toNat, Nat.shiftRight_zero, Nat.mod_eq_of_lt h]

/-- READ and WRITE send the cursor as the argument of their command (R121, R122). -/
theorem commandOf_arg {s : State} (h : s.phase.top = .opRead ∨ s.phase.top = .opWrite) :
    ∃ c, commandOf s = some c ∧ c.arg = sectorArgument s := by
  rcases h with h | h
  · exact ⟨⟨17#6, sectorArgument s⟩, by simp only [commandOf, h], rfl⟩
  · exact ⟨⟨24#6, sectorArgument s⟩, by simp only [commandOf, h], rfl⟩

/-- Settles O55: a READ or WRITE in progress has its cursor in range (`Inv.operation`), so no bit of it is cut
off, and the frame latch holds the frame of its command (`Inv.frame`). -/
theorem sectorsSentAreInRange : Obligations.SectorsSentAreInRange := by
  intro s hinv htop _
  obtain ⟨hinit, hrange⟩ := hinv.operation htop
  have hcursor : s.dev.position.toNat < s.dev.blockCount.toNat := BitVec.lt_def.mp hrange
  refine ⟨hcursor, fun hlatched => ?_⟩
  obtain ⟨c, hc, harg⟩ := commandOf_arg htop
  have hcount := (hinv.blockCount hinit).2
  simp only [hinv.frame hlatched c hc]
  rw [ofBe32_frame, harg, sectorArgument_toNat (by omega)]

end Sys2Proof.Machine
end

section
/-! The mock card of 95_test_vectors.md section 4: its store, and what it answers to a command frame, to polls and
to a block. -/

namespace Sys2Proof.Machine

/-! ## The store -/

@[simp] theorem Memory.readSector_length (m : Memory) (sector : Nat) :
    (m.readSector sector).length = blockBytes := by
  rw [Memory.readSector, Memory.readBytes, List.length_map, List.length_range]

theorem Memory.readSector_writeSector_same {m : Memory} (sector : Nat) {bytes : List Byte}
    (h : Memory.wf m = true) (hl : bytes.length = blockBytes) :
    (m.writeSector sector bytes).readSector sector = bytes := by
  apply List.ext_getElem
  · rw [Memory.readSector_length, hl]
  · intro j h1 h2
    simp [Memory.readSector, Memory.readBytes, Memory.writeSector, Memory.read_writeBytes _ _ _ h, h2]

theorem Memory.readSector_writeSector_other {m : Memory} {sector other : Nat} {bytes : List Byte}
    (h : Memory.wf m = true) (hl : bytes.length = blockBytes) (ho : other ≠ sector) :
    (m.writeSector sector bytes).readSector other = m.readSector other := by
  unfold Memory.readSector Memory.readBytes
  refine List.map_congr_left fun j hj => ?_
  rw [List.mem_range] at hj
  rw [Memory.writeSector, Memory.read_writeBytes _ _ _ h, dif_neg]
  simp only [sectorAddress, hl, blockBytes] at *
  omega

/-! ## The mock, exchange by exchange -/

/-- The mock `m` answers the bytes of these pairs one after the other, and is then `m'`. -/
inductive Mock.Exchanges : Mock → List (Byte × Byte) → Mock → Prop where
  | nil (m : Mock) : Mock.Exchanges m [] m
  | cons {m u m' : Mock} {o i : Byte} {pairs : List (Byte × Byte)} (answer : m.answer o = (i, u))
      (rest : Mock.Exchanges u pairs m') : Mock.Exchanges m ((o, i) :: pairs) m'

theorem Mock.Exchanges.append {m u m' : Mock} {p q : List (Byte × Byte)} (h : m.Exchanges p u)
    (g : u.Exchanges q m') : m.Exchanges (p ++ q) m' := by
  induction h with
  | nil => exact g
  | cons answer _ ih => exact .cons answer (ih g)

theorem Mock.Exchanges.single {m u : Mock} {o i : Byte} (answer : m.answer o = (i, u)) :
    m.Exchanges [(o, i)] u := .cons answer (.nil u)

/-- No frame and no block is being collected: a byte 0xFF goes by unheard. -/
structure Mock.Unhearing (m : Mock) : Prop where
  frame : m.collected = []
  block : ∀ sector bytes, m.capture ≠ .collecting sector bytes

/-- The mock between two operations. -/
structure Mock.Quiet (m : Mock) : Prop where
  queue : m.queue = []
  collected : m.collected = []
  capture : m.capture = .off

theorem Mock.Quiet.unhearing {m : Mock} (h : m.Quiet) : m.Unhearing :=
  ⟨h.collected, fun _ _ => by rw [h.capture]; simp⟩

theorem Mock.answer_fill {m : Mock} (h : m.Unhearing) :
    m.answer Config.fill = (m.queue.headD 0xFF#8, { m with queue := m.queue.tail }) := by
  cases hc : m.capture with
  | off => simp [Mock.answer, Mock.collect, hc, h.frame, Config.fill]
  | waiting sector => simp [Mock.answer, hc, Config.fill]
  | collecting sector bytes => exact absurd hc (h.block sector bytes)

/-- Polled, the mock gives out its queue. -/
theorem Mock.exchanges_queue (bytes rest : List Byte) :
    ∀ {m : Mock}, m.Unhearing → m.queue = bytes ++ rest →
      m.Exchanges (received bytes) { m with queue := rest } := by
  induction bytes with
  | nil => intro m _ hq; rw [← show m.queue = rest from hq]; exact .nil m
  | cons b bytes ih =>
    intro m h hq
    refine .cons (u := { m with queue := bytes ++ rest }) ?_ (ih ⟨h.frame, h.block⟩ rfl)
    rw [Mock.answer_fill h, hq]; rfl

/-- A mock that has nothing to say answers 0xFF. -/
theorem Mock.exchanges_silence {m : Mock} (h : m.Unhearing) (hq : m.queue = []) :
    m.Exchanges (received [0xFF#8]) m := by
  refine .single ?_
  have hm : { m with queue := m.queue.tail } = m := by rw [hq, List.tail_nil, ← hq]
  rw [Mock.answer_fill h, hm, hq]; rfl

/-- With nothing queued the mock answers 0xFF, and the byte goes to its frame collector. -/
theorem Mock.answer_off {m : Mock} (hq : m.queue = []) (hc : m.capture = .off) (o : Byte) :
    m.answer o = (0xFF#8, m.collect o) := by
  cases m; simp only at hq hc; subst hq hc; rfl

theorem Mock.collect_frameByte {m : Mock} {o : Byte} (ho : m.collected ≠ [] ∨ o.extractLsb' 6 2 = 0b01#2)
    (hl : m.collected.length + 1 < 6) : m.collect o = { m with collected := m.collected ++ [o] } := by
  have hl' : (m.collected ++ [o]).length ≠ 6 := by rw [List.length_append, List.length_singleton]; omega
  simp only [Mock.collect, if_pos ho, if_neg hl']

theorem Mock.collect_frameEnd {m : Mock} {o : Byte} (hl : m.collected.length + 1 = 6) :
    m.collect o = m.command (m.collected ++ [o]) := by
  have ho : m.collected ≠ [] ∨ o.extractLsb' 6 2 = 0b01#2 := .inl (by intro h; simp [h] at hl)
  have hl' : (m.collected ++ [o]).length = 6 := by rw [List.length_append, List.length_singleton, hl]
  simp only [Mock.collect, if_pos ho, if_pos hl']

/-- Frame byte 0 opens a frame (R71). -/
theorem frameHead_opens : ∀ index : BitVec 6, (frameHead index).extractLsb' 6 2 = 0b01#2 := by decide

theorem frameHead_index : ∀ index : BitVec 6, (frameHead index).extractLsb' 0 6 = index := by decide

/-- The mock after the frame of a command: its reply queued behind the fillers. -/
def Mock.replying (m : Mock) (c : Command) : Mock :=
  { (m.reply c.index.toNat c.arg.toNat).2 with
    queue := List.replicate m.ncr 0xFF#8 ++ (m.reply c.index.toNat c.arg.toNat).1, collected := [] }

/-- The mock reads index and argument out of a frame as they were put into it (R71). -/
theorem Mock.command_frame (m : Mock) (bytes : List Byte) (c : Command) :
    ({ m with collected := bytes } : Mock).command c.frame.toList = m.replying c := by
  have hf : c.frame.toList = [frameHead c.index, c.arg.extractLsb' 24 8, c.arg.extractLsb' 16 8,
    c.arg.extractLsb' 8 8, c.arg.extractLsb' 0 8, crcByte c.index] := rfl
  rw [hf]
  simp only [Mock.command, frameHead_index, ofBe32_be32, Mock.replying, Mock.reply]
  (repeat' split) <;> rfl

/-- CMD17: R1, fillers, and the block of the sector. -/
theorem Mock.replying_cmd17 {m : Mock} (hc : m.collected = []) (ho : m.overrides = []) (arg : BitVec 32) :
    m.replying ⟨17#6, arg⟩ =
      { m with
        queue := List.replicate m.ncr 0xFF#8 ++ 0x00#8 :: (List.replicate m.nac 0xFF#8 ++
          Config.startToken :: (m.store.readSector arg.toNat ++ [0x12#8, 0x34#8])) } := by
  simp [Mock.replying, Mock.reply, ho, hc, Config.startToken]

/-- CMD24: R1, and the mock waits for the block. -/
theorem Mock.replying_cmd24 {m : Mock} (hc : m.collected = []) (ho : m.overrides = []) (arg : BitVec 32) :
    m.replying ⟨24#6, arg⟩ =
      { m with
        queue := List.replicate m.ncr 0xFF#8 ++ [0x00#8], capture := .waiting arg.toNat } := by
  simp [Mock.replying, Mock.reply, ho, hc]

/-- Six frame bytes, and the mock has its reply ready. -/
theorem Mock.exchanges_frame {m : Mock} (h : m.Quiet) (c : Command) :
    m.Exchanges (c.frame.toList.zip (List.replicate 6 0xFF#8)) (m.replying c) := by
  have collects : ∀ (bytes : List Byte) (o : Byte) {pairs : List (Byte × Byte)} {m' : Mock},
      bytes ≠ [] → bytes.length + 1 < 6 → Mock.Exchanges { m with collected := bytes ++ [o] } pairs m' →
      Mock.Exchanges { m with collected := bytes } ((o, 0xFF#8) :: pairs) m' := by
    intro bytes o pairs m' hb hl
    refine .cons ?_
    rw [Mock.answer_off (m := { m with collected := bytes }) h.queue h.capture,
      Mock.collect_frameByte (.inl hb) hl]
  have first : m.answer (frameHead c.index) = (0xFF#8, { m with collected := [frameHead c.index] }) := by
    rw [Mock.answer_off h.queue h.capture, Mock.collect_frameByte (.inr (frameHead_opens _))
      (by simp [h.collected]), h.collected, List.nil_append]
  refine .cons first (collects [_] _ (by simp) (by simp) (collects _ _ (by simp) (by simp)
    (collects _ _ (by simp) (by simp) (collects _ _ (by simp) (by simp) (.single ?_)))))
  rw [Mock.answer_off (by exact h.queue) (by exact h.capture), Mock.collect_frameEnd rfl]
  exact congrArg _ (Mock.command_frame m _ c)

/-! ### A block being captured -/

/-- The mock with these bytes of a block for this sector captured. -/
def Mock.collecting (m : Mock) (sector : Nat) (bytes : List Byte) : Mock :=
  { m with capture := .collecting sector bytes }

/-- The mock after a block it accepts: the sector stored, the data response and the busy bytes queued. -/
def Mock.stored (m : Mock) (sector : Nat) (payload : List Byte) : Mock :=
  { m with
    store := m.store.writeSector sector payload, capture := .off
    queue := m.wresp :: List.replicate m.busy 0x00#8 }

theorem Mock.answer_waiting {m : Mock} {sector : Nat} (hq : m.queue = []) (hc : m.capture = .waiting sector) :
    m.answer Config.startToken = (0xFF#8, m.collecting sector []) := by
  cases m; simp only at hq hc; subst hq hc; rfl

/-- While a block is captured the mock answers 0xFF, and the byte goes to the block. -/
theorem Mock.answer_collecting {m : Mock} (hq : m.queue = []) (sector : Nat) (bytes : List Byte) (o : Byte) :
    (m.collecting sector bytes).answer o = (0xFF#8, (m.collecting sector bytes).captureByte sector bytes o) := by
  cases m; simp only at hq; subst hq; rfl

theorem Mock.answer_blockByte {m : Mock} (hq : m.queue = []) (sector : Nat) {bytes : List Byte} (o : Byte)
    (hl : bytes.length + 1 < blockBytes + 2) :
    (m.collecting sector bytes).answer o = (0xFF#8, m.collecting sector (bytes ++ [o])) := by
  have hl' : (bytes ++ [o]).length ≠ blockBytes + 2 := by
    rw [List.length_append, List.length_singleton]; omega
  rw [Mock.answer_collecting hq]
  simp only [Mock.captureByte, if_neg hl', Mock.collecting]

theorem Mock.answer_blockEnd {m : Mock} (hq : m.queue = []) (hw : m.wresp &&& 0x1F#8 = 0x05#8) (sector : Nat)
    {bytes : List Byte} (o : Byte) (hl : bytes.length + 1 = blockBytes + 2) :
    (m.collecting sector bytes).answer o = (0xFF#8, m.stored sector (bytes.take blockBytes)) := by
  have hl' : (bytes ++ [o]).length = blockBytes + 2 := by
    rw [List.length_append, List.length_singleton, hl]
  rw [Mock.answer_collecting hq]
  simp only [Mock.captureByte, if_pos hl', hw, if_true, Mock.stored, Mock.collecting,
    List.take_append_of_le_length (show blockBytes ≤ bytes.length by omega)]

/-- Bytes of a block, none of them its last. -/
theorem Mock.exchanges_block {m : Mock} (hq : m.queue = []) (sector : Nat) (data : List Byte) :
    ∀ bytes : List Byte, bytes.length + data.length < blockBytes + 2 →
      (m.collecting sector bytes).Exchanges (data.zip (List.replicate data.length 0xFF#8))
        (m.collecting sector (bytes ++ data)) := by
  induction data with
  | nil => intro bytes _; rw [List.append_nil]; exact .nil _
  | cons o data ih =>
    intro bytes hl
    rw [List.length_cons] at hl
    have h := ih (bytes ++ [o]) (by rw [List.length_append, List.length_singleton]; omega)
    rw [List.append_assoc] at h
    exact .cons (Mock.answer_blockByte hq sector o (by omega)) h

/-- A whole outbound block: token, payload, two fillers, and the sector is stored. -/
theorem Mock.exchanges_outbound {m : Mock} {sector : Nat} (payload : Block) (hq : m.queue = [])
    (hc : m.capture = .waiting sector) (hw : m.wresp &&& 0x1F#8 = 0x05#8) :
    m.Exchanges ([(Config.startToken, 0xFF#8)] ++ payload.val.zip (List.replicate blockBytes 0xFF#8) ++
      [(Config.crcFiller, 0xFF#8), (Config.crcFiller, 0xFF#8)]) (m.stored sector payload.val) := by
  have block := Mock.exchanges_block hq sector payload.val [] (by rw [payload.property]; decide)
  rw [payload.property] at block
  have crc0 := Mock.answer_blockByte hq sector (bytes := payload.val) Config.crcFiller
    (by rw [payload.property]; decide)
  have crc1 := Mock.answer_blockEnd hq hw sector (bytes := payload.val ++ [Config.crcFiller]) Config.crcFiller
    (by rw [List.length_append, payload.property]; rfl)
  rw [List.take_left' payload.property] at crc1
  exact ((Mock.Exchanges.single (Mock.answer_waiting hq hc)).append block).append (.cons crc0 (.single crc1))

end Sys2Proof.Machine
end

section
/-! R63: a sector written is read back, with the mock card as the premise on the oracle. Each procedure does
against the mock what it does against an oracle that lists the mock's answers. -/

namespace Sys2Proof.Machine

/-! ## Procedures against the mock -/

/-- Whatever ignores the run ignores the card. -/
theorem IgnoresRun.withCard {f : State → State} {s : State} (h : IgnoresRun f s) (card : Card) :
    f { s with card := card } = { f s with card := card } := by
  obtain ⟨added, h⟩ := h
  have hown := h s.card s.draws s.history s.responses
  calc f { s with card := card }
      = { inRun s.card s.draws s.history (s.responses ++ added) (f s) with card := card } :=
        h card s.draws s.history s.responses
    _ = { f s with card := card } := by rw [← hown]; rfl

theorem exchange_withCard (length : Nat) (i : Byte) (s : State) (card : Card) :
    exchange length i { s with card := card } = { exchange length i s with card := card } :=
  (react_ignoresRun length i (record (outByte s) i s)).withCard card

theorem procedureTick_mock (length : Nat) {s : State} {m u : Mock} {i : Byte} (hc : s.card = .mock m)
    (ha : m.answer (outByte s) = (i, u)) :
    procedureTick length s = { exchange length i s with card := .mock u } := by
  have hi : cardByte s = i := by simp [cardByte, hc, Card.answer, ha]
  have hm : cardMoves s = { s with card := .mock u } := by simp [cardMoves, hc, Card.answer, ha]
  rw [procedureTick, hi, hm, exchange_withCard]

/-- The first pair of a procedure. -/
theorem finishProcedure_history_cons (length : Nat) {s : State} (hs : s.phase.sub ≠ .none) :
    ∃ added, (finishProcedure length s).history = s.history ++ (outByte s, cardByte s) :: added := by
  obtain ⟨added, h, -⟩ := finishProcedure_history length (procedureTick length s)
  refine ⟨added, ?_⟩
  rw [finishProcedure_tick length hs, h, procedureTick_history, List.append_assoc, List.singleton_append]

/-- A procedure against the mock is the procedure against the oracle that lists what the mock answers: if its
pairs are exchanges of the mock, it ends in the same state, the card apart. -/
theorem finishProcedure_mock (length : Nat) {m m' : Mock} {pairs : List (Byte × Byte)}
    (h : m.Exchanges pairs m') : ∀ {s t : State}, s.card = .mock m →
      finishProcedure length { s with card := .oracle (pairs.map Prod.snd) } = t →
      t.history = s.history ++ pairs → finishProcedure length s = { t with card := .mock m' } := by
  induction h with
  | nil m =>
    intro s t hc ht hh
    have hs : s.phase.sub = .none := by
      by_contra hs
      obtain ⟨added, ha⟩ := finishProcedure_history_cons length
        (s := { s with card := .oracle ([].map Prod.snd) }) hs
      rw [ht, hh] at ha
      simp at ha
    rw [finishProcedure_ended length (by exact hs)] at ht ⊢
    rw [← ht, ← hc]
  | @cons m u m' o i pairs answer _ ih =>
    intro s t hc ht hh
    have hs : s.phase.sub ≠ .none := by
      intro hs
      rw [finishProcedure_ended length (by exact hs)] at ht
      simp [← ht] at hh
    obtain ⟨added, ha⟩ := finishProcedure_history_cons length
      (s := { s with card := .oracle (((o, i) :: pairs).map Prod.snd) }) hs
    rw [ht, hh] at ha
    obtain ⟨hpair, -⟩ := List.cons.inj (List.append_cancel_left ha)
    have ho : outByte s = o := (congrArg Prod.fst hpair).symm
    subst ho
    rw [finishProcedure_tick length hs, procedureTick_mock length hc answer]
    refine ih rfl ?_ ?_
    · rw [finishProcedure_oracle length rfl (by exact hs), exchange_withCard, exchange_withCard] at ht
      exact ht
    · rw [hh, exchange_history, List.append_assoc, List.singleton_append]

theorem received_snd (bytes : List Byte) : (received bytes).map Prod.snd = bytes := by
  simp [received, Function.comp_def]

/-- The exchanges of a command that the mock answers: ready at once, the fillers, the R1. -/
def mockPairs (m : Mock) (c : Command) (r1 : Byte) : List (Byte × Byte) :=
  commandPairs c.frame [0xFF#8] (List.replicate 6 0xFF#8) (List.replicate m.ncr 0xFF#8 ++ [r1])

theorem mockPairs_snd (m : Mock) (c : Command) (r1 : Byte) :
    (mockPairs m c r1).map Prod.snd =
      [0xFF#8] ++ (List.replicate 6 0xFF#8 ++ (List.replicate m.ncr 0xFF#8 ++ r1 :: [])) := by
  simp [mockPairs, commandPairs, received_snd, List.map_snd_zip]

/-- `sendCommand` against a mock whose reply begins with the R1 byte `r1` (R110). -/
theorem sendCommand_mock {s : State} {m : Mock} (c : Command) {r1 : Byte} {rest : List Byte}
    (hc : s.card = .mock m) (hm : m.Quiet) (hu : (m.replying c).Unhearing)
    (hreply : (m.replying c).queue = List.replicate m.ncr 0xFF#8 ++ r1 :: rest) (hr1 : isR1 r1 = true)
    (hncr : m.ncr < s.params.retryBudget) :
    (sendCommand c s).r1 = .answer (r1.extractLsb' 0 7) ∧
      (sendCommand c s).card = .mock { m.replying c with queue := rest } := by
  have exchanges : m.Exchanges (mockPairs m c r1) { m.replying c with queue := rest } :=
    ((Mock.exchanges_silence hm.unhearing hm.queue).append (Mock.exchanges_frame hm c)).append
      (Mock.exchanges_queue _ rest hu (by rw [hreply, List.append_assoc, List.singleton_append]))
  have answered := sendCommand_answer c { s with card := .oracle ((mockPairs m c r1).map Prod.snd) } [0xFF#8]
    (List.replicate 6 0xFF#8) (List.replicate m.ncr 0xFF#8) [] r1 (congrArg Card.oracle (mockPairs_snd m c r1))
    (Nat.lt_of_le_of_lt (Nat.zero_le _) hncr)
    (.inl ⟨[], 0xFF#8, rfl, by simp, rfl, Nat.lt_of_le_of_lt (Nat.zero_le _) hncr⟩)
    List.length_replicate (fun b hb => by rw [List.eq_of_mem_replicate hb]; decide) hr1
    (by rw [List.length_replicate]; exact hncr)
  have h := finishProcedure_mock blockBytes exchanges
    (s := { startRun .cmdReady (startPoll .cmdReady s) with frame := c.frame }) hc answered
    (by simp [mockPairs, commandPairs, startRun, startPoll, goto])
  constructor <;> rw [sendCommand, h]

/-- `Receive` against a mock that has a whole block queued, `nac` fillers in front of it (R150). -/
theorem receive_mock (length : Nat) {s : State} {m : Mock} {payload : List Byte} {c0 c1 : Byte}
    (hc : s.card = .mock m) (hu : m.Unhearing)
    (hq : m.queue = List.replicate m.nac 0xFF#8 ++ Config.startToken :: (payload ++ [c0, c1]))
    (hnac : m.nac < s.params.retryBudget) (hl : payload.length = length) (hne : payload ≠ []) :
    (receive length s).rxData = payload ∧ (receive length s).framerResult = .ok ∧
      (receive length s).card = .mock { m with queue := [] } := by
  have exchanges : m.Exchanges (received m.queue) { m with queue := [] } :=
    Mock.exchanges_queue m.queue [] hu (List.append_nil _).symm
  have block := receive_block length { s with card := .oracle ((received m.queue).map Prod.snd) }
    (List.replicate m.nac 0xFF#8) payload [] c0 c1 (by rw [received_snd, hq])
    (fun b hb => by rw [List.eq_of_mem_replicate hb]; decide) (by rw [List.length_replicate]; exact hnac) hl hne
  have h := finishProcedure_mock length exchanges (s := startReceive s) hc block (by simp [hq, received])
  refine ⟨?_, ?_, ?_⟩ <;> rw [receive, h]

/-- The exchanges of an outbound block that the mock accepts: the block, the data response, the busy bytes and
the release. -/
def mockStorePairs (m : Mock) (payload : Block) : List (Byte × Byte) :=
  [(Config.startToken, 0xFF#8)] ++ payload.val.zip (List.replicate blockBytes 0xFF#8) ++
    [(Config.crcFiller, 0xFF#8), (Config.crcFiller, 0xFF#8)] ++
    received (m.wresp :: List.replicate m.busy 0x00#8) ++ received [0xFF#8]

theorem mockStorePairs_snd (m : Mock) (payload : Block) :
    (mockStorePairs m payload).map Prod.snd = 0xFF#8 :: (List.replicate blockBytes 0xFF#8 ++ 0xFF#8 :: 0xFF#8 ::
      m.wresp :: (List.replicate m.busy 0x00#8 ++ 0xFF#8 :: [])) := by
  simp only [mockStorePairs, List.map_append, received_snd]
  rw [List.map_snd_zip (by rw [payload.property, List.length_replicate])]
  simp

theorem Mock.exchanges_store {m : Mock} {sector : Nat} (payload : Block) (hq : m.queue = [])
    (hf : m.collected = []) (hw : m.capture = .waiting sector) (ha : m.wresp &&& 0x1F#8 = 0x05#8) :
    m.Exchanges (mockStorePairs m payload)
      { m with store := m.store.writeSector sector payload.val, capture := .off } := by
  have hu : (m.stored sector payload.val).Unhearing := ⟨hf, fun _ _ => by simp [Mock.stored]⟩
  have response := Mock.exchanges_queue (m.wresp :: List.replicate m.busy 0x00#8) [] hu (List.append_nil _).symm
  have release := Mock.exchanges_silence (m := { m.stored sector payload.val with queue := [] })
    ⟨hu.frame, hu.block⟩ rfl
  have hend : ({ m with store := m.store.writeSector sector payload.val, capture := .off } : Mock) =
      { m.stored sector payload.val with queue := [] } := by rw [← hq]; rfl
  rw [hend]
  exact ((Mock.exchanges_outbound payload hq hw ha).append response).append release

/-- `Transmit` against a mock that waits for the block and accepts it (R154 to R156). -/
theorem transmit_mock {s : State} {m : Mock} {sector : Nat} {payload : Block} (hc : s.card = .mock m)
    (hp : s.txData = some payload) (hq : m.queue = []) (hf : m.collected = [])
    (hw : m.capture = .waiting sector) (ha : m.wresp &&& 0x1F#8 = 0x05#8)
    (hbusy : m.busy < s.params.retryBudget) :
    (transmit s).framerResult = .ok ∧ (transmit s).card =
      .mock { m with store := m.store.writeSector sector payload.val, capture := .off } := by
  have released := transmit_released { s with card := .oracle ((mockStorePairs m payload).map Prod.snd) } payload hp
    0xFF#8 0xFF#8 0xFF#8 m.wresp 0xFF#8 (List.replicate blockBytes 0xFF#8) (List.replicate m.busy 0x00#8) []
    (congrArg Card.oracle (mockStorePairs_snd m payload)) List.length_replicate (by simp [isAccepting, ha])
    (fun b hb => by rw [List.eq_of_mem_replicate hb]; rfl) rfl (by rw [List.length_replicate]; exact hbusy)
  have h := finishProcedure_mock blockBytes (Mock.exchanges_store payload hq hf hw ha) (s := goto .txToken s) hc
    released (by simp [mockStorePairs, received])
  constructor <;> rw [transmit, h]

/-! ## Operations against the mock -/

theorem ReadyIdle.not_busy {s : State} (h : ReadyIdle s) : busy s = false := by
  rw [not_busy_iff, h.idle]; rfl

/-- An operation that is over when an IDLE engine accepts it. -/
theorem whenIdle_complete_over {s t : State} (hs : busy s = false) (ht : busy t = false) :
    whenIdle s (complete s t) = .next t := by
  simp [whenIdle, hs, complete, ht]

/-- An operation that an IDLE engine accepts and runs. -/
theorem whenIdle_complete_runs {s t : State} (hs : busy s = false) (ht : busy t = true)
    (hl : s.stalled = false) : whenIdle s (complete s t) = .next (finish t) := by
  simp [whenIdle, hs, complete, ht, afterExchanges, hl]

/-- SEEK of a sector in range (R176). -/
theorem exec_seek_ready {s : State} {sector : BitVec 32} (h : ReadyIdle s)
    (hr : seekSector sector < s.dev.blockCount) :
    exec (.seek sector) s = .next (respond (.status .ok) (setPosition (seekSector sector) s)) := by
  have hstart : startSeek sector s = respond (.status .ok) (setPosition (seekSector sector) s) := by
    simp [startSeek, h.initialized, outOfRange, hr]
  change whenIdle s (complete s (startSeek sector s)) = _
  rw [hstart, whenIdle_complete_over h.not_busy rfl]

/-- A WRITE that is accepted is CMD24, and then its caller (R178). -/
theorem exec_write_accepted {s : State} (payload : Block) (h : ReadyIdle s)
    (he : s.params.writeEnable = true) (hr : s.dev.position < s.dev.blockCount) :
    exec (.write payload) s = .next (finish (afterCommand (sendCommand ⟨24#6, sectorArgument s⟩
      (startCommand .opWrite false { s with txData := some payload })))) := by
  have hstart : startWrite payload s = startCommand .opWrite false { s with txData := some payload } := by
    simp [startWrite, h.initialized, he, outOfRange, hr]
  rw [exec_write, hstart, whenIdle_complete_runs h.not_busy rfl h.live]
  exact congrArg _ (finish_startCommand .opWrite false _ _ (by decide) rfl)

/-- A READ that is accepted is CMD17, and then its caller (R177). -/
theorem exec_read_accepted {s : State} (h : ReadyIdle s) (hr : s.dev.position < s.dev.blockCount) :
    exec .read s = .next (finish (afterCommand (sendCommand ⟨17#6, sectorArgument s⟩
      (startCommand .opRead false s)))) := by
  have hstart : startRead s = startCommand .opRead false s := by
    simp [startRead, h.initialized, outOfRange, hr]
  rw [exec_read, hstart, whenIdle_complete_runs h.not_busy rfl h.live]
  exact congrArg _ (finish_startCommand .opRead false _ _ (by decide) rfl)

/-- A WRITE whose CMD24 was answered R1 == 0 is `Transmit`, and then its caller (R178). -/
theorem finish_writeAnswered {s : State} (ht : s.phase.top = .opWrite) (hr1 : s.r1 = .answer 0#7) :
    finish (afterCommand s) = finish (afterTransmit (transmit s)) := by
  have h : afterCommand s = goto .txToken s := by
    simp [afterCommand, ht, afterWriteCommand, R1Result.isZero, hr1]
  rw [h, finish_startTransmit s (by simp [busy, ht]) ht]

/-- A READ whose CMD17 was answered R1 == 0 is `Receive(512)`, and then its caller (R177). -/
theorem finish_readAnswered {s : State} (ht : s.phase.top = .opRead) (hr1 : s.r1 = .answer 0#7) :
    finish (afterCommand s) = finish (afterReceive (receive blockBytes s)) := by
  have h : afterCommand s = startReceive s := by
    simp [afterCommand, ht, afterReadCommand, R1Result.isZero, hr1]
  rw [h, finish_startReceive s (by simp [busy, ht]), ht]
  rfl

theorem finish_writeStored {s : State} (ht : s.phase.top = .opWrite) (hf : s.framerResult = .ok) :
    finish (afterTransmit s) = respond (.status .ok) (dropPayload (advancePosition s)) := by
  simp [afterTransmit, ht, afterWriteBlock, hf, finish_respond]

theorem finish_readDelivered {s : State} (ht : s.phase.top = .opRead) (hf : s.framerResult = .ok) :
    finish (afterReceive s) = respond (.data s.rxData) (dropPayload (advancePosition s)) := by
  simp [afterReceive, ht, afterReadBlock, hf, finish_respond]

/-- WRITE to the mock: the sector is stored, and nothing else of the mock changes. -/
theorem exec_write_mock {s : State} {m : Mock} (payload : Block) (h : ReadyIdle s)
    (he : s.params.writeEnable = true) (hr : s.dev.position < s.dev.blockCount) (hc : s.card = .mock m)
    (hm : m.Quiet) (ho : m.overrides = []) (ha : m.wresp &&& 0x1F#8 = 0x05#8)
    (hncr : m.ncr < s.params.retryBudget) (hbusy : m.busy < s.params.retryBudget) :
    ∃ t, exec (.write payload) s = .next t ∧ ReadyIdle t ∧ t.params = s.params ∧
      t.dev.blockCount = s.dev.blockCount ∧ t.responses = s.responses ++ [.status .ok] ∧
      t.card = .mock { m with store := m.store.writeSector (sectorArgument s).toNat payload.val } := by
  have hreply := Mock.replying_cmd24 hm.collected ho (sectorArgument s)
  have hcommand := sendCommand_procedureFrame ⟨24#6, sectorArgument s⟩
    (startCommand .opWrite false { s with txData := some payload })
  obtain ⟨hr1, hcard⟩ := sendCommand_mock (s := startCommand .opWrite false { s with txData := some payload })
    ⟨24#6, sectorArgument s⟩ (r1 := 0x00#8) (rest := []) hc hm
    (by rw [hreply]; exact ⟨hm.collected, fun _ _ => by simp⟩) (by rw [hreply]) rfl hncr
  rw [hreply] at hcard
  rw [exec_write_accepted payload h he hr]
  generalize sendCommand ⟨24#6, sectorArgument s⟩ (startCommand .opWrite false { s with txData := some payload }) = v
    at hcommand hr1 hcard ⊢
  have htransmit : ProcedureFrame (goto .txToken v) (transmit v) := finishProcedure_frame _ _
  obtain ⟨hok, hstored⟩ := transmit_mock hcard hcommand.txData rfl hm.collected rfl ha
    (by rw [hcommand.params]; exact hbusy)
  rw [finish_writeAnswered hcommand.top hr1, finish_writeStored (htransmit.top.trans hcommand.top) hok]
  have hdev : (transmit v).dev = s.dev := htransmit.dev.trans hcommand.dev
  have hresponses : (transmit v).responses = s.responses := htransmit.responses.trans hcommand.responses
  refine ⟨_, rfl, ⟨rfl, ?_, htransmit.stalled.trans (hcommand.stalled.trans h.live)⟩,
    htransmit.params.trans hcommand.params, ?_, ?_, ?_⟩
  · exact (congrArg DeviceState.initialized hdev).trans h.initialized
  · exact (congrArg DeviceState.blockCount hdev :)
  · rw [respond_responses, dropPayload_responses, advancePosition_responses, hresponses]
  · rw [respond_card, dropPayload_card, advancePosition_card, hstored, hm.queue, hm.capture]

/-- READ from the mock: the sector is delivered, and nothing of the mock changes. -/
theorem exec_read_mock {s : State} {m : Mock} (h : ReadyIdle s) (hr : s.dev.position < s.dev.blockCount)
    (hc : s.card = .mock m) (hm : m.Quiet) (ho : m.overrides = [])
    (hncr : m.ncr < s.params.retryBudget) (hnac : m.nac < s.params.retryBudget) :
    ∃ t, exec .read s = .next t ∧
      t.responses = s.responses ++ [.data (m.store.readSector (sectorArgument s).toNat)] ∧ t.card = .mock m := by
  have hreply := Mock.replying_cmd17 hm.collected ho (sectorArgument s)
  have hcommand := sendCommand_procedureFrame ⟨17#6, sectorArgument s⟩ (startCommand .opRead false s)
  obtain ⟨hr1, hcard⟩ := sendCommand_mock (s := startCommand .opRead false s) ⟨17#6, sectorArgument s⟩
    (r1 := 0x00#8) hc hm (by rw [hreply]; exact ⟨hm.collected, hm.unhearing.block⟩) (by rw [hreply]) rfl hncr
  rw [hreply] at hcard
  rw [exec_read_accepted h hr]
  generalize sendCommand ⟨17#6, sectorArgument s⟩ (startCommand .opRead false s) = v at hcommand hr1 hcard ⊢
  have hend : ({ m with queue := [] } : Mock) = m := by rw [← hm.queue]
  have hreceive : ProcedureFrame (startReceive v) (receive blockBytes v) := finishProcedure_frame _ _
  have hlength := m.store.readSector_length (sectorArgument s).toNat
  obtain ⟨hdata, hok, hrest⟩ := receive_mock blockBytes hcard ⟨hm.collected, hm.unhearing.block⟩ rfl
    (by rw [hcommand.params]; exact hnac) hlength (List.ne_nil_of_length_pos (by rw [hlength]; decide))
  rw [finish_readAnswered hcommand.top hr1, finish_readDelivered (hreceive.top.trans hcommand.top) hok, hdata]
  have hresponses : (receive blockBytes v).responses = s.responses :=
    hreceive.responses.trans hcommand.responses
  refine ⟨_, rfl, ?_, ?_⟩
  · rw [respond_responses, dropPayload_responses, advancePosition_responses, hresponses]
  · rw [respond_card, dropPayload_card, advancePosition_card, hrest]
    exact congrArg Card.mock hend

theorem seekSector_toNat (sector : BitVec 32) : (seekSector sector).toNat = sector.toNat := by
  rw [seekSector, BitVec.toNat_setWidth, Nat.mod_eq_of_lt (by omega)]

/-- After a SEEK the sector that is sent is the one asked for (R121, R122, R176). -/
theorem sectorArgument_setPosition (sector : BitVec 32) (s : State) :
    (sectorArgument (setPosition (seekSector sector) s)).toNat = sector.toNat := by
  have h : (setPosition (seekSector sector) s).dev.position.toNat = sector.toNat := seekSector_toNat sector
  rw [sectorArgument_toNat (by omega), h]

/-- SEEK of a sector in range leaves a Ready device with its cursor there (R176). -/
theorem ReadyIdle.seek {s : State} (h : ReadyIdle s) (sector : BitVec 32) :
    ReadyIdle (respond (.status .ok) (setPosition (seekSector sector) s)) :=
  ⟨rfl, h.initialized, h.live⟩

/-- Settles O60: the WRITE leaves the mock with that one sector written (`exec_write_mock`), the READ delivers what
the mock then holds (`exec_read_mock`), and the store reads back as written. -/
theorem readAfterWrite : Obligations.ReadAfterWrite := by
  intro s m sector payload h he hr hc hwf hq hf hcap ho ha hncr hnac hbusy
  have hrange : seekSector sector < s.dev.blockCount := by rw [BitVec.lt_def, seekSector_toNat]; exact hr
  obtain ⟨t2, hwrite, h2, hparams, hcount, hresponses, hcard⟩ :=
    exec_write_mock payload (h.seek sector) he hrange hc ⟨hq, hf, hcap⟩ ho ha hncr hbusy
  have hrange2 : seekSector sector < t2.dev.blockCount := by rw [hcount]; exact hrange
  obtain ⟨t4, hread, hresponses4, hcard4⟩ :=
    exec_read_mock (h2.seek sector) hrange2 hcard ⟨hq, hf, hcap⟩ ho
      (by rw [respond_params, setPosition_params, hparams]; exact hncr)
      (by rw [respond_params, setPosition_params, hparams]; exact hnac)
  have hsector : ∀ s, (sectorArgument (respond (.status .ok) (setPosition (seekSector sector) s))).toNat =
    sector.toNat := sectorArgument_setPosition sector
  refine ⟨_, t2, _, t4, _, exec_seek_ready h hrange, hwrite, exec_seek_ready h2 hrange2, hread, ?_, hcard4, ?_⟩
  · rw [hresponses4, respond_responses, setPosition_responses, hresponses, respond_responses, setPosition_responses,
      hsector, hsector, Memory.readSector_writeSector_same _ hwf payload.property]
    simp
  · intro other hother
    rw [hsector]
    exact Memory.readSector_writeSector_other hwf payload.property hother

end Sys2Proof.Machine
end

section
/-! The family of 30_encoding.md: the request word and the response lines of R86, and what a busy engine does with
a line state byte and with a start token. -/

namespace Sys2Proof.Machine

/-! ## Request words on the lines of an IDLE engine (R86, U10) -/

theorem decodeRequest_reserved {r : HostRequest} (h : r.op = 6#3 ∨ r.op = 7#3) :
    decodeRequest r = .error .reservedRequest := by
  rcases h with h | h <;> simp [decodeRequest, h]

/-- Codes 6 and 7 are refused, with no next state. -/
theorem step_reserved {s : State} {r : HostRequest} (hi : s.phase.top = .idle) (hr : s.request = some r)
    (h : r.op = 6#3 ∨ r.op = 7#3) : step s = .refused .reservedRequest := by
  have hb : busy s = false := (not_busy_iff s).mpr hi
  have hp : presented s = some r := by rcases h with h | h <;> simp [presented, hr, h]
  simp [step, hp, hb, accept, decodeRequest_reserved h]

/-- Code 0 is no request: without a script an IDLE engine stays as it is. -/
theorem step_noRequest {s : State} {r : HostRequest} (hi : s.phase.top = .idle) (hr : s.request = some r)
    (h : r.op = 0#3) (hs : s.script = []) : step s = .next s := by
  have hb : busy s = false := (not_busy_iff s).mpr hi
  have hp : presented s = none := by simp [presented, hr, h]
  simp [step, hp, hb, idleStep, hs]

/-- Settles O4: the fields of a request word are `requestWord_op` and `requestWord_sector`, so the codes decode in
the decoder's own order; the codes without an operation are `step_reserved` and `step_noRequest`; the response
lines are `Response.lines`, evaluated. -/
theorem hostRequestForms : Obligations.HostRequestForms := by
  refine ⟨fun sector payload => ?_, fun r s hi hr => ⟨step_reserved hi hr, step_noRequest hi hr⟩,
    fun payload value => ⟨rfl, rfl, rfl, rfl, rfl, rfl, rfl⟩⟩
  simp [decodeRequest, requestWord_op, requestWord_sector]

/-! ## One byte received by a busy engine -/

theorem receiveBytes_single {s : State} (b : Byte) (hb : busy s = true) (hl : s.stalled = false) :
    receiveBytes [b] s = .next (engineStep b s) := by
  simp [receiveBytes, hb, afterExchanges, hl, deliver]

theorem exec_ready {s : State} (hb : busy s = true) (hl : s.stalled = false) :
    exec .ready s = .next (engineStep 0xFF#8 s) := receiveBytes_single 0xFF#8 hb hl

/-- START where the engine does not send it is the token received. -/
theorem exec_start_received {s : State} (hb : busy s = true) (hl : s.stalled = false)
    (hs : s.phase.sub ≠ .txToken) : exec .start s = .next (engineStep Config.startToken s) := by
  simp [exec, execStart, hb, afterExchanges, hl, hs]

/-- START at the control point that sends it is one step against the card. -/
theorem exec_start_sent {s : State} (hb : busy s = true) (hl : s.stalled = false)
    (hs : s.phase.sub = .txToken) : exec .start s = .next (tick s) := by
  simp [exec, execStart, hb, afterExchanges, hl, hs]

/-- The frame is latched with the first exchange of the ready poll, and nowhere else (R33). -/
theorem latchFrame_elsewhere {s : State} (h : s.phase.sub = .cmdReady → s.n ≠ 0) : latchFrame s = s :=
  if_neg fun ⟨hs, hn⟩ => h hs hn

/-- An engine step inside a procedure is the procedure's reaction to the byte. -/
theorem engineStep_within {s u : State} {i : Byte} (hb : busy s = true)
    (hu : react (rxLength s.phase.top) i (record (outByte s) i (latchFrame s)) = u)
    (hs : u.phase.sub ≠ .none) : engineStep i s = u := by
  rw [engineStep_eq_reactAndReturn i hb, reactAndReturn, hu, if_neg hs]

/-- An engine step that ends a procedure is the reaction and then the caller's decision. -/
theorem engineStep_returns {s u : State} {i : Byte} (hb : busy s = true)
    (hu : react (rxLength s.phase.top) i (record (outByte s) i (latchFrame s)) = u)
    (hs : u.phase.sub = .none) : engineStep i s = returnFrom s.phase.sub u := by
  rw [engineStep_eq_reactAndReturn i hb, reactAndReturn, hu, if_pos hs]

/-! ### The reactions to READY and START -/

/-- READY ends the ready poll (R111). -/
theorem react_ready_command (length : Nat) {s : State} (hs : s.phase.sub = .cmdReady) :
    react length 0xFF#8 s = startRun .cmdFrame { s with n := s.n + 1 } := by
  simp [react, hs, reactReady, pollStep, isReady]

/-- READY ends the busy poll, and with it `Transmit` (R156). -/
theorem react_ready_written (length : Nat) {s : State} (hs : s.phase.sub = .txBusy) :
    react length 0xFF#8 s = endFramer .ok { s with n := s.n + 1 } := by
  simp [react, hs, reactBusy, pollStep, isReady]

/-- START ends the start-token poll (R151). -/
theorem react_start_received (length : Nat) {s : State} (hs : s.phase.sub = .rxToken) :
    react length Config.startToken s = startPayload { s with n := s.n + 1 } := by
  simp [react, hs, reactToken, pollStep, isStartToken]

/-- Once START is sent the payload follows, whatever was received (R154). -/
theorem react_start_sent (length : Nat) (i : Byte) {s : State} (hs : s.phase.sub = .txToken) :
    react length i s = startRun .txPayload s := by
  simp [react, hs, reactTxToken]

/-! ### The engine steps -/

/-- READY before a command: byte 0 of the frame comes next. The frame is the one in the latch from the second
exchange of the poll on. -/
theorem engineStep_ready_command {s : State} (hb : busy s = true) (hs : s.phase.sub = .cmdReady) :
    engineStep 0xFF#8 s =
      startRun .cmdFrame { record 0xFF#8 0xFF#8 (latchFrame s) with n := s.n + 1 } := by
  have ho : outByte s = 0xFF#8 := by simp [outByte, hs, Config.fill]
  have hu := react_ready_command (rxLength s.phase.top) (s := record 0xFF#8 0xFF#8 (latchFrame s)) (by simpa using hs)
  rw [record_n, latchFrame_n] at hu
  exact engineStep_within hb (by rw [ho, hu]) (by simp)

/-- READY after an accepted block: `Transmit` returns Ok to the WRITE (R156, R178). -/
theorem engineStep_ready_written {s : State} (ht : s.phase.top = .opWrite) (hs : s.phase.sub = .txBusy) :
    engineStep 0xFF#8 s = respond (.status .ok) (dropPayload (advancePosition
      (endFramer .ok { record 0xFF#8 0xFF#8 s with n := s.n + 1 }))) := by
  have ho : outByte s = 0xFF#8 := by simp [outByte, hs, Config.fill]
  have hu := react_ready_written (rxLength s.phase.top) (s := record 0xFF#8 0xFF#8 s) hs
  rw [engineStep_returns (by simp [busy, ht]) (by rw [latchFrame_elsewhere (by simp [hs]), ho, hu]) rfl, hs]
  simp [returnFrom, afterTransmit, ht, afterWriteBlock, endFramer]

/-- START received: payload byte 0 comes next, nothing of the block held yet (R151). -/
theorem engineStep_start_received {s : State} (hb : busy s = true) (hs : s.phase.sub = .rxToken) :
    engineStep Config.startToken s = startPayload { record 0xFF#8 0xFE#8 s with n := s.n + 1 } := by
  have ho : outByte s = 0xFF#8 := by simp [outByte, hs, Config.fill]
  refine engineStep_within hb ?_ (by simp)
  rw [latchFrame_elsewhere (by simp [hs]), ho]
  exact react_start_received _ hs

/-- START sent: payload byte 0 goes out next (R154). -/
theorem engineStep_start_sent {s : State} (i : Byte) (hb : busy s = true) (hs : s.phase.sub = .txToken) :
    engineStep i s = startRun .txPayload (record 0xFE#8 i s) := by
  have ho : outByte s = 0xFE#8 := by simp [outByte, hs, Config.startToken]
  refine engineStep_within hb ?_ (by simp)
  rw [latchFrame_elsewhere (by simp [hs]), ho]
  exact react_start_sent _ i hs

/-- Settles O26: READY before a command is `engineStep_ready_command`, with the latched frame or the one that
stands; after an accepted block it is `engineStep_ready_written`. -/
theorem readyByte : Obligations.ReadyByte := by
  refine fun s hb hl => ⟨fun hs => ?_, fun ht hs => ?_⟩
  · obtain ⟨frame, hf⟩ := latchFrame_cases s
    refine ⟨frame, fun hn => ?_, ?_⟩
    · exact congrArg State.frame (hf.symm.trans (latchFrame_elsewhere fun _ => hn))
    · rw [exec_ready hb hl, engineStep_ready_command hb hs, hf]; rfl
  · rw [exec_ready hb hl, engineStep_ready_written ht hs]; rfl

/-- Settles O24: received, START is `engineStep_start_received`; sent, it is `engineStep_start_sent` with the byte
the card answers. -/
theorem startTokenBothWays : Obligations.StartTokenBothWays := by
  refine fun s hb hl => ⟨fun hs => ?_, fun hs => ⟨cardByte s, (cardMoves s).card, (cardMoves s).draws, ?_⟩⟩
  · rw [exec_start_received hb hl (by simp [hs]), engineStep_start_received hb hs]; rfl
  · rw [exec_start_sent hb hl hs, tick_busy hb, engineStep_start_sent (s := cardMoves s) _ hb hs]; rfl

end Sys2Proof.Machine
end

section
/-! The family of 40_bus_transport.md: the exchanges of a step and the byte each sends (R7, R103), the bytes a poll
skips (R102), and received formats as exchanges (R100, R104). -/

namespace Sys2Proof.Machine

/-! ## Polls (R102) -/

theorem pollStep_miss {hit : Bool} {s : State} (onHit onExhausted : State → State) (miss : hit = false)
    (budget : s.n + 1 < s.params.retryBudget) :
    pollStep hit onHit onExhausted s = { s with n := s.n + 1 } := by
  simp [pollStep, miss, pollExhausted, budget]

/-- The byte fails the test of the poll at this control point (R83 b, d, f). -/
def SubPhase.MissedBy (sub : SubPhase) (i : Byte) : Prop :=
  ((sub = .cmdReady ∨ sub = .txBusy) ∧ isReady i = false) ∨ (sub = .cmdR1 ∧ isR1 i = false) ∨
    (sub = .rxToken ∧ isStartToken i = false)

theorem react_miss (length : Nat) {i : Byte} {s : State} (miss : s.phase.sub.MissedBy i)
    (budget : s.n + 1 < s.params.retryBudget) : react length i s = { s with n := s.n + 1 } := by
  rcases miss with ⟨hs | hs, hi⟩ | ⟨hs, hi⟩ | ⟨hs, hi⟩ <;> rw [react, hs] <;>
    exact pollStep_miss _ _ hi budget

/-- A byte that the R1 poll passes over has bit 7 set (R74). -/
theorem isR1_of_high : ∀ i : Byte, 0x80#8 ≤ i → isR1 i = false := by decide

theorem SubPhase.MissedBy.polls {sub : SubPhase} {i : Byte} (h : sub.MissedBy i) : sub.polls = true := by
  rcases h with ⟨rfl | rfl, -⟩ | ⟨rfl, -⟩ | ⟨rfl, -⟩ <;> rfl

/-- The three places where another byte than the filler goes out (R103). -/
theorem outByte_elsewhere {s : State} (hframe : s.phase.sub ≠ .cmdFrame) (htoken : s.phase.sub ≠ .txToken)
    (hpayload : s.phase.sub ≠ .txPayload) : outByte s = 0xFF#8 := by
  cases hs : s.phase.sub with
  | cmdFrame => exact absurd hs hframe
  | txToken => exact absurd hs htoken
  | txPayload => exact absurd hs hpayload
  | _ => simp [outByte, hs, Config.fill, Config.crcFiller]

theorem outByte_poll {s : State} (h : s.phase.sub.polls = true) : outByte s = 0xFF#8 := by
  apply outByte_elsewhere <;> intro hs <;> simp [hs, SubPhase.polls] at h

/-- Settles O21: the reaction to a missed byte counts (`react_miss`), and a poll sends 0xFF. -/
theorem pollsSkipOtherBytes : Obligations.PollsSkipOtherBytes := by
  intro i s hb hn hpoll
  have hmiss : s.phase.sub.MissedBy i := by
    rcases hpoll with ⟨hs, hi⟩ | ⟨hs, hi⟩ | ⟨hs, hi⟩ | ⟨hs, hi⟩
    · exact .inl ⟨.inl hs, by simpa [isReady] using hi⟩
    · exact .inr (.inl ⟨hs, isR1_of_high i hi⟩)
    · exact .inr (.inr ⟨hs, by simpa [isStartToken, Config.startToken] using hi⟩)
    · exact .inl ⟨.inr hs, by simpa [isReady] using hi⟩
  obtain ⟨frame, hf⟩ := latchFrame_cases s
  refine ⟨frame, fun hlatched => ?_, ?_⟩
  · have hstays : latchFrame s = s := latchFrame_elsewhere fun hs => hlatched.resolve_left (not_not_intro hs)
    exact congrArg State.frame (hf.symm.trans hstays)
  · refine engineStep_within hb ?_ ?_
    · rw [outByte_poll hmiss.polls, hf]
      exact react_miss _ hmiss hn
    · intro hs
      have hp := hmiss.polls
      rw [show s.phase.sub = .none from hs] at hp
      cases hp

/-! ## What a step sends (R7, R103) -/

/-- Only a WRITE sends a payload (R35). -/
theorem top_of_txPayload {s : State} (hl : s.phase.legal = true) (hs : s.phase.sub = .txPayload) :
    s.phase.top = .opWrite := by
  cases ht : s.phase.top <;> simp [Phase.legal, ht, hs, SubPhase.inCommand] at hl ⊢

/-- A frame byte goes out while the frame is sent: the invariant has the index inside it. -/
theorem Inv.outByte_frame {s : State} (hinv : Inv s) (hs : s.phase.sub = .cmdFrame) :
    ∃ h : s.k < 6, outByte s = s.frame[s.k] := by
  have hk : s.k < 6 := by simpa [hs, SubPhase.runLength] using hinv.runCounter
  exact ⟨hk, by simp [outByte, hs, hk]⟩

/-- A payload byte goes out while the payload is sent: the invariant has the index inside it and the payload of
the WRITE at hand. -/
theorem Inv.outByte_payload {s : State} (hinv : Inv s) (hs : s.phase.sub = .txPayload) :
    ∃ payload, s.txData = some payload ∧ payload.val[s.k]? = some (outByte s) := by
  obtain ⟨payload, hp⟩ := Option.isSome_iff_exists.mp (hinv.noOutbound.mpr (top_of_txPayload hinv.phase hs))
  have hk : s.k < payload.val.length := by
    rw [payload.property]; simpa [hs, SubPhase.runLength] using hinv.runCounter
  exact ⟨payload, hp, by simp [outByte, hs, hp, payloadBytes, hk]⟩

/-- A ready poll never ends its operation (R111). -/
theorem tick_ready_top {s : State} (hb : busy s = true) (hs : s.phase.sub = .cmdReady) :
    (tick s).phase.top = s.phase.top := by
  rw [tick_busy hb]
  obtain ⟨f, v, -, -, hreact, hv⟩ := engineStep_cases (s := cardMoves s) (cardByte s) hb (by simp [hs])
  rcases hv with ⟨-, he⟩ | ⟨hended, -⟩
  · rw [he]; exact hreact.frame_kept.top
  · have := hreact.ended (by simp [hs]) hended
    simp [hs] at this

/-- An operation that is accepted and goes on is a READ or a WRITE (R7; log 10). -/
theorem StartsTo.top_of_busy {i : Instr} {s t : State} (h : StartsTo s i t) (hb : busy t = true) :
    t.phase.top = .opRead ∨ t.phase.top = .opWrite := by
  cases h with
  | readBegins => exact .inl rfl
  | writeBegins => exact .inr rfl
  | _ => cases hb

theorem StartsTo.history {i : Instr} {s t : State} (h : StartsTo s i t) : t.history = s.history := by
  cases h <;> rfl

/-- A step of an IDLE engine: no exchange, or the first one of the READ or the WRITE it accepts. -/
theorem step_idle_exchanges {s t : State} (hb : busy s = false) (h : step s = .next t) :
    (t.history = s.history ∧ busy t = false) ∨
      ∃ i, t.history = s.history ++ [(0xFF#8, i)] ∧ (t.phase.top = .opRead ∨ t.phase.top = .opWrite) := by
  rcases step_cases h with ⟨hbusy, -⟩ | ⟨-, u, hu, ht⟩
  · rw [hb] at hbusy; cases hbusy
  have hsu : u.history = s.history ∧ busy u = false := by
    rcases hu with rfl | rfl | ⟨r, rest, -, rfl⟩ <;> exact ⟨rfl, hb⟩
  rcases ht with rfl | ⟨i, hhost, ht⟩
  · exact .inl hsu
  · have hstart := startRequest_startsTo u hhost
    have hhistory : (startRequest i u).history = s.history := hstart.history.trans hsu.1
    rcases ht with ⟨hidle, rfl⟩ | ⟨hbusy, -, rfl⟩
    · exact .inl ⟨hhistory, hidle⟩
    · have hsub := hstart.sub_of_busy hbusy
      refine .inr ⟨cardByte (startRequest i u), ?_, ?_⟩
      · rw [tick_history hbusy, hhistory, outByte_poll (by simp [hsub, SubPhase.polls])]
      · rw [tick_ready_top hbusy hsub]
        exact hstart.top_of_busy hbusy

/-- Settles O53: a busy engine records the pair of `tick_history`, its byte being `outByte` at each control point;
an IDLE one is `step_idle_exchanges`. -/
theorem sentBytes : Obligations.SentBytes := by
  intro s t hinv hstep
  refine ⟨fun hb => ?_, fun hb => step_idle_exchanges hb hstep⟩
  rcases step_cases hstep with ⟨-, -, -, rfl⟩ | ⟨hidle, -⟩
  · exact ⟨outByte s, cardByte s, tick_history hb, hinv.outByte_frame,
      fun hs => by rw [outByte, hs]; rfl, hinv.outByte_payload, outByte_elsewhere⟩
  · rw [hb] at hidle; cases hidle

/-! ## Received formats (R70, R83) -/

/-- A format that the card sends, the CSD with its CRC positions apart, is the card answering its bytes. START is
one of them except where the engine sends it. -/
theorem exec_received {i : Instr} {bytes : List Byte} {s : State} (he : encode i = .wire bytes)
    (hcommand : i.context ≠ .command) (houtbound : i.context ≠ .outbound) (hregister : i.context ≠ .register)
    (hstart : i = .start → s.phase.sub ≠ .txToken) : exec i s = receiveBytes bytes s := by
  cases i with
  | r1 | r7 | drespAccept | ready | rxblock => cases he; rfl
  | start => cases he; simp [exec, execStart, receiveBytes, deliver, hstart]
  | cmd0 | cmd8 | cmd9 | cmd17 | cmd24 | acmd41 | cmd55 => exact absurd rfl hcommand
  | txblock => exact absurd rfl houtbound
  | csd => exact absurd rfl hregister
  | seek | read | write | blocksize | blockcount | init => cases he

/-- An IDLE engine makes no exchange, so no format reaches it (R216; log 15). -/
theorem exec_received_idle {i : Instr} {bytes : List Byte} {s : State} (he : encode i = .wire bytes)
    (hcommand : i.context ≠ .command) (houtbound : i.context ≠ .outbound) (hb : busy s = false) :
    exec i s = .next s := by
  cases i with
  | r1 | r7 | start | drespAccept | ready | rxblock | csd =>
    exact if_neg (by rw [hb]; exact Bool.false_ne_true)
  | cmd0 | cmd8 | cmd9 | cmd17 | cmd24 | acmd41 | cmd55 => exact absurd rfl hcommand
  | txblock => exact absurd rfl houtbound
  | seek | read | write | blocksize | blockcount | init => cases he

/-- What travels on the bus is at least one byte (R70). -/
theorem encode_ne_nil {i : Instr} {bytes : List Byte} (he : encode i = .wire bytes) : bytes ≠ [] := by
  cases i with
  | seek | read | write | blocksize | blockcount | init => cases he
  | csd register => cases he; exact List.ne_nil_of_length_pos (by simp)
  | _ => cases he; exact List.cons_ne_nil _ _

/-! ### One byte (R100) -/

/-- A format that is a test on its byte decodes where the test passes (R83). -/
theorem passes_of_decoded {p : Prop} [Decidable p] {e : DecodeError} {i j : Instr}
    (h : (if p then Except.ok j else .error e) = .ok i) : p ∧ j = i := by
  by_cases hp : p
  · rw [if_pos hp] at h; cases h; exact ⟨hp, rfl⟩
  · rw [if_neg hp] at h; cases h

/-- The byte that passes the test of its context is the encoding of the instruction it decodes to. -/
theorem encode_of_polled {c : Context} {b : Byte} {i : Instr}
    (hc : c = .status ∨ c = .token ∨ c = .dataResponse ∨ c = .lineState)
    (h : decode c (.wire [b]) = .ok i) : encode i = .wire [b] ∧ i.context = c := by
  have wire {d : Byte} (hd : d = b) : Encoded.wire [d] = .wire [b] := by rw [hd]
  rcases hc with rfl | rfl | rfl | rfl <;> obtain ⟨hb, rfl⟩ := passes_of_decoded h
  · exact ⟨wire (r1Byte_of_isR1 b hb), rfl⟩
  · exact ⟨wire hb.symm, rfl⟩
  · exact ⟨wire (acceptByte_of_isAccepting b hb), rfl⟩
  · exact ⟨wire hb.symm, rfl⟩

/-- A step of a busy engine is the card's next byte received. -/
theorem step_oracle {s : State} {b : Byte} {rest : List Byte} (hb : busy s = true) (hr : s.request = none)
    (hc : s.card = .oracle (b :: rest)) : step s = receiveBytes [b] { s with card := .oracle rest } := by
  have hbyte : cardByte s = b := by simp [cardByte, hc, Card.answer]
  have hmoves : cardMoves s = { s with card := .oracle rest } := by simp [cardMoves, hc, Card.answer]
  have hb' : busy { s with card := .oracle rest } = true := hb
  simp only [step, presented_eq_none_of_request hr, hb, busyStep, tick_busy hb, hbyte, hmoves, receiveBytes, hb']
  rfl

/-- Settles O10: the step receives the byte (`step_oracle`), and the instruction it decodes to is the card
answering that byte (`encode_of_polled`, `exec_received`). -/
theorem stepRunsReceivedByte : Obligations.StepRunsReceivedByte := by
  intro s b rest i hb hr hc hplace
  obtain ⟨c, hpolled, hdecode, hsub⟩ :
      ∃ c, (c = .status ∨ c = .token ∨ c = .dataResponse ∨ c = .lineState) ∧
        decode c (.wire [b]) = .ok i ∧ s.phase.sub ≠ .txToken := by
    rcases hplace with ⟨hs, hd⟩ | ⟨hs, hd⟩ | ⟨hs, hd⟩ | ⟨hs | hs, hd⟩ <;>
      exact ⟨_, by simp, hd, by simp [hs]⟩
  obtain ⟨he, hcontext⟩ := encode_of_polled hpolled hdecode
  rw [step_oracle hb hr hc]
  refine (exec_received (s := { s with card := .oracle rest }) he ?_ ?_ ?_ fun _ => hsub).symm <;>
    rcases hpolled with rfl | rfl | rfl | rfl <;> simp [hcontext]

/-! ### Many bytes (R83, R104) -/

theorem deliver_idle (bytes : List Byte) {s : State} (hb : busy s = false) : deliver bytes s = s := by
  induction bytes with
  | nil => rfl
  | cons b bytes ih => rw [deliver, List.foldl_cons, engineStep_idle b hb]; exact ih

/-- Bytes answered to a busy engine: it takes them one by one, the first always, until all are taken or it is
IDLE; the rest does nothing. -/
theorem deliver_takes (bytes : List Byte) : ∀ s : State, busy s = true → bytes ≠ [] →
    ∃ taken, taken ≠ [] ∧ taken <+: bytes ∧ (taken = bytes ∨ busy (deliver taken s) = false) ∧
      deliver bytes s = deliver taken s ∧
      (deliver taken s).history.map Prod.snd = s.history.map Prod.snd ++ taken := by
  induction bytes with
  | nil => intro s _ h; exact absurd rfl h
  | cons b bytes ih =>
    intro s hb _
    have hfirst : (engineStep b s).history.map Prod.snd = s.history.map Prod.snd ++ [b] := by
      rw [(engineStep_frame b hb).history, List.map_append]; rfl
    cases hgoes : busy (engineStep b s) with
    | false =>
      exact ⟨[b], List.cons_ne_nil _ _, ⟨bytes, rfl⟩, .inr hgoes, deliver_idle bytes hgoes, hfirst⟩
    | true =>
      by_cases hlast : bytes = []
      · subst hlast
        exact ⟨[b], List.cons_ne_nil _ _, List.prefix_rfl, .inl rfl, rfl, hfirst⟩
      · obtain ⟨taken, -, hprefix, hend, hsame, hhistory⟩ := ih _ hgoes hlast
        refine ⟨b :: taken, List.cons_ne_nil _ _, (List.prefix_cons_inj b).mpr hprefix,
          hend.imp_left (congrArg (b :: ·)), hsame, ?_⟩
        exact hhistory.trans (by rw [hfirst, List.append_assoc, List.singleton_append])

theorem tick_exchanges (s : State) :
    ∃ more : List Byte, (tick s).history.map Prod.snd = s.history.map Prod.snd ++ more ∧ more.length ≤ 1 := by
  cases hb : busy s
  · exact ⟨[], by rw [tick_idle hb, List.append_nil], Nat.zero_le _⟩
  · exact ⟨[cardByte s], by rw [tick_history hb, List.map_append]; rfl, Nat.le_refl _⟩

theorem discardCrc_exchanges (s : State) : ∃ more : List Byte,
    (discardCrc s).history.map Prod.snd = s.history.map Prod.snd ++ more ∧ more.length ≤ 2 := by
  obtain ⟨first, hfirst, hl⟩ := tick_exchanges s
  obtain ⟨second, hsecond, hl'⟩ := tick_exchanges (tick s)
  unfold discardCrc
  split
  · simp only []
    split
    · exact ⟨first ++ second, by rw [hsecond, hfirst, List.append_assoc], by rw [List.length_append]; omega⟩
    · exact ⟨first, hfirst, by omega⟩
  · exact ⟨[], by rw [List.append_nil], by simp⟩

theorem discardCrc_idle {s : State} (hb : busy s = false) : discardCrc s = s := by
  simp [discardCrc, tick_idle hb]

/-- A format received by a busy engine: its bytes answered, and after the bytes of a CSD the exchanges of the CRC
positions. -/
theorem exec_received_busy {i : Instr} {bytes : List Byte} {s : State} (hl : s.stalled = false)
    (he : encode i = .wire bytes) (hcommand : i.context ≠ .command) (houtbound : i.context ≠ .outbound)
    (hb : busy s = true) (hstart : i = .start → s.phase.sub ≠ .txToken) :
    exec i s = .next (if i.context = .register then discardCrc (deliver bytes s) else deliver bytes s) := by
  by_cases hregister : i.context = .register
  · cases i with
    | csd register => cases he; simp [exec, execCsd, hb, afterExchanges, hl, Instr.context]
    | _ => cases hregister
  · rw [exec_received he hcommand houtbound hregister hstart, if_neg hregister]
    simp [receiveBytes, hb, afterExchanges, hl]

/-- Settles O31: the bytes are taken as `deliver_takes` says, and `discardCrc_exchanges` counts what follows those
of a CSD. -/
theorem receivedBytesAreExchanges : Obligations.ReceivedBytesAreExchanges := by
  intro i bytes s hl he hcommand houtbound
  refine ⟨exec_received_idle he hcommand houtbound, fun hb hstart => ?_⟩
  obtain ⟨taken, hne, hprefix, hend, hsame, hhistory⟩ := deliver_takes bytes s hb (encode_ne_nil he)
  rw [exec_received_busy hl he hcommand houtbound hb hstart, hsame]
  have hall {t : State} (ht : busy (deliver taken s) = false → t = deliver taken s) (hbusy : busy t = true) :
      taken = bytes :=
    hend.resolve_right fun hidle => by rw [ht hidle, hidle] at hbusy; cases hbusy
  by_cases hregister : i.context = .register
  · obtain ⟨more, hmore, hlength⟩ := discardCrc_exchanges (deliver taken s)
    rw [if_pos hregister]
    exact ⟨_, taken, more, rfl, by rw [hmore, hhistory], hne, hprefix, hend, hall discardCrc_idle,
      fun h => absurd hregister h, hlength⟩
  · rw [if_neg hregister]
    exact ⟨_, taken, [], rfl, by rw [hhistory, List.append_nil], hne, hprefix, hend, hall fun _ => rfl,
      fun _ => rfl, by simp⟩

end Sys2Proof.Machine
end

section
/-! The family of 41_command.md, the command procedure: its exchanges against any card and its end against given
answers (R110 to R114), and the rows that stop at the R1 (R116 to R122). -/

namespace Sys2Proof.Machine

/-! ## The exchanges of a command against any card (R110) -/

/-- The fewest exchanges a command still makes: one of the ready poll, what is left of the frame, one of the R1
poll. -/
def commandLeast (s : State) : Nat :=
  match s.phase.sub with
  | .cmdReady => 1 + 6 + 1
  | .cmdFrame => runLeft 6 s + 1
  | .cmdR1 => 1
  | _ => 0

/-- One exchange takes at most one off it. -/
theorem commandLeast_reactsTo {length : Nat} {i : Byte} {s t : State} (h : ReactsTo length i s t) :
    commandLeast s ≤ commandLeast t + 1 := by
  cases h with
  | readyWaits sub | readyEnds sub | r1Waits sub | r1Arrives sub | r1TimesOut sub =>
    simp [commandLeast, runLeft, sub]
  | frameGoes sub _ | frameEnds sub _ => simp only [commandLeast, runLeft, sub]; omega
  | _ => simp [commandLeast, *]

/-- A procedure adds at least so many pairs to the history. -/
theorem finishProcedure_history_least (length : Nat) (s : State) :
    s.history.length + commandLeast s ≤ (finishProcedure length s).history.length := by
  refine finishProcedure_induction length
    (P := fun s t => s.history.length + commandLeast s ≤ t.history.length) (fun s hs => ?_)
    (fun s t hs ih => ?_) s
  · simp [commandLeast, hs]
  · have hleast : commandLeast s ≤ commandLeast (procedureTick length s) + 1 :=
      commandLeast_reactsTo (s := record (outByte (cardMoves s)) (cardByte s) (cardMoves s))
        (procedureTick_reactsTo length hs)
    rw [procedureTick_history, List.length_append, List.length_singleton] at ih
    omega

/-- Where `sendCommand` begins: at its ready poll, with the frame in the latch. -/
def commandStart (c : Command) (s : State) : State :=
  { startRun .cmdReady (startPoll .cmdReady s) with frame := c.frame }

theorem sendCommand_eq (c : Command) (s : State) :
    sendCommand c s = finishProcedure blockBytes (commandStart c s) := rfl

theorem commandLeast_commandStart (c : Command) (s : State) : commandLeast (commandStart c s) = 8 := rfl

/-- The two polls and the frame between them. -/
theorem procedureLeft_commandStart (c : Command) {s : State} (hb : 1 ≤ s.params.retryBudget) :
    procedureLeft blockBytes (commandStart c s) = 2 * s.params.retryBudget + 6 := by
  simp only [commandStart, procedureLeft, startRun_phase_sub, pollLeft, budget, startRun_n, startPoll_n,
    startRun_params, startPoll_params]
  omega

/-- A command makes at least 8 exchanges and at most those of its two polls and its frame (R110). -/
theorem sendCommand_exchanges (c : Command) {s : State} (hb : 1 ≤ s.params.retryBudget) :
    ∃ pairs, (sendCommand c s).history = s.history ++ pairs ∧ 8 ≤ pairs.length ∧
      pairs.length ≤ 2 * s.params.retryBudget + 6 := by
  obtain ⟨pairs, hpairs, hmost⟩ := finishProcedure_history blockBytes (commandStart c s)
  have hleast := finishProcedure_history_least blockBytes (commandStart c s)
  rw [hpairs, List.length_append, commandLeast_commandStart] at hleast
  rw [procedureLeft_commandStart c hb] at hmost
  exact ⟨pairs, hpairs, Nat.le_of_add_le_add_left hleast, hmost⟩

/-! ## A command against given answers -/

/-- What the R1 poll makes of the bytes it receives (R114). -/
inductive R1PollGives (budget : Nat) (bytes : List Byte) : R1Result → Prop where
  | answer {bits : BitVec 7} (h : R1Answer budget bits bytes) : R1PollGives budget bytes (.answer bits)
  | timeout (h : PollMiss budget isR1 bytes) : R1PollGives budget bytes .timeout

/-- The bytes that the ready poll, the frame and the R1 poll of a command receive, and what it gives (R110). -/
structure CommandHeard (p : Params) (ready frameIn r1In : List Byte) (r : R1Result) : Prop where
  budget : 1 ≤ p.retryBudget
  ready : ReadyPoll p.retryBudget ready
  frame : frameIn.length = 6
  result : R1PollGives p.retryBudget r1In r

/-- `sendCommand` ends with its exchanges made and its result latched, nothing else (R110). -/
theorem sendCommand_ends (c : Command) {s : State} {ready frameIn r1In rest : List Byte} {r : R1Result}
    (heard : CommandHeard s.params ready frameIn r1In r)
    (hc : s.card = .oracle (ready ++ frameIn ++ r1In ++ rest)) :
    ∃ n k, sendCommand c s =
      commandEnds c.frame r (commandPairs c.frame ready frameIn r1In) rest n k s := by
  obtain ⟨hb, hready, hframe, hresult⟩ := heard
  cases hresult with
  | answer h =>
    obtain ⟨misses, rfl, hm, hl⟩ := h
    have answered := sendCommand_answer c s ready frameIn misses rest _ (by simpa using hc) hb hready hframe hm
      (isR1_r1Byte _) (by simpa using hl)
    rw [r1Byte_bits] at answered
    exact ⟨misses.length + 1, 5, by rw [answered]; simp [commandEnds, commandPairs]⟩
  | timeout h =>
    have timedOut := sendCommand_timeout c s ready frameIn r1In rest (by simpa using hc) hb hready hframe h
    exact ⟨s.params.retryBudget, 5, by rw [timedOut]; simp [commandEnds, commandPairs]⟩

/-- Byte 0 of a frame masks the index to its own six bits (R71). -/
theorem frameHead_masked (index : BitVec 6) : frameHead index = 0x40#8 ||| (index &&& 0x3F#6).zeroExtend 8 := by
  revert index; decide

/-- Settles O13: the frame is R71's, the exchanges are counted by `sendCommand_exchanges`, and against given answers
`sendCommand_ends` says where the procedure ends. -/
theorem sendCommand_spec : Obligations.SendCommand := by
  intro c s hb
  refine ⟨?_, sendCommand_exchanges c hb,
    fun ready frameIn r1In rest hready hframe hc => ⟨fun bits h => ?_, fun h => ?_⟩⟩
  · rw [Command.frame, commandFrame_toList, frameHead_masked]; rfl
  · exact sendCommand_ends c ⟨hb, hready, hframe, .answer h⟩ hc
  · exact sendCommand_ends c ⟨hb, hready, hframe, .timeout h⟩ hc

/-! ## The rows that are a command and no more (R116, R118, R119) -/

theorem afterExchanges_live {s : State} (t : State) (hl : s.stalled = false) : afterExchanges s t = .next t := by
  simp [afterExchanges, hl]

/-- Settles O14: each row is one `sendCommand`, whose end is `sendCommand_ends`. -/
theorem commandsWithoutData : Obligations.CommandsWithoutData := by
  intro i frame s ready frameIn r1In rest r hi hl hb hready hframe hr1 hc
  obtain ⟨c, hexec, rfl⟩ : ∃ c : Command, exec i s = afterExchanges s (sendCommand c s) ∧ c.frame = frame := by
    rcases hi with ⟨rfl, rfl⟩ | ⟨rfl, rfl⟩ | ⟨rfl, rfl⟩
    · exact ⟨⟨0#6, 0#32⟩, rfl, by decide⟩
    · exact ⟨⟨55#6, 0#32⟩, rfl, by decide⟩
    · exact ⟨⟨41#6, acmd41Argument⟩, rfl, by decide⟩
  have hr : R1PollGives s.params.retryBudget r1In r := by
    rcases hr1 with ⟨bits, h, rfl⟩ | ⟨h, rfl⟩
    · exact .answer h
    · exact .timeout h
  obtain ⟨n, k, hends⟩ := sendCommand_ends c ⟨hb, hready, hframe, hr⟩ hc
  exact ⟨n, k, by rw [hexec, afterExchanges_live _ hl, hends]⟩

end Sys2Proof.Machine
end

section
/-! The family of 41_command.md, the rows with a data phase: they stop at the R1 poll, or read the reply, receive or
transmit (R117, R120 to R122). -/

namespace Sys2Proof.Machine

/-! ## The rows, once exchanges complete -/

/-- What CMD9 and CMD17 do: the command, and only after R1 == 0 the inbound block (R120, R121). -/
def readRow (c : Command) (length : Nat) (s : State) : State :=
  dropUnclaimed s (if (sendCommand c s).r1.isZero then receive length (sendCommand c s) else sendCommand c s)

theorem exec_cmd9 {s : State} (hl : s.stalled = false) : exec .cmd9 s = .next (readRow ⟨9#6, 0#32⟩ 16 s) :=
  afterExchanges_live _ hl

theorem exec_cmd17 (sector : BitVec 32) {s : State} (hl : s.stalled = false) :
    exec (.cmd17 sector) s = .next (readRow ⟨17#6, sector⟩ blockBytes s) := afterExchanges_live _ hl

theorem exec_cmd8 {s : State} (hl : s.stalled = false) :
    exec .cmd8 s = .next (if (sendCommand ⟨8#6, cmd8Argument⟩ s).r1.isIdle then
      readReply (sendCommand ⟨8#6, cmd8Argument⟩ s) else sendCommand ⟨8#6, cmd8Argument⟩ s) :=
  afterExchanges_live _ hl

theorem exec_cmd24 (sector : BitVec 32) {s : State} (hl : s.stalled = false) :
    exec (.cmd24 sector) s = .next (if (sendCommand ⟨24#6, sector⟩ s).r1.isZero then
      { transmit (supplyPayload (sendCommand ⟨24#6, sector⟩ s)) with txData := s.txData }
      else sendCommand ⟨24#6, sector⟩ s) :=
  afterExchanges_live _ hl

/-! ## Stopping at the R1 poll -/

/-- Where the payload fields are as they were, there is none to drop. -/
theorem dropUnclaimed_of_kept {s t : State} (hrx : t.rxData = s.rxData) (htx : t.txData = s.txData) :
    dropUnclaimed s t = t := by
  rw [dropUnclaimed, ← hrx, ← htx, ite_self]

/-- A command moves no payload. -/
theorem dropUnclaimed_sendCommand (c : Command) (s : State) :
    dropUnclaimed s (sendCommand c s) = sendCommand c s := by
  obtain ⟨-, hrx, -⟩ := sendCommand_latches c s
  exact dropUnclaimed_of_kept hrx (sendCommand_procedureFrame c s).txData

theorem readRow_stops {c : Command} (length : Nat) {s : State} (h : (sendCommand c s).r1 ≠ .answer 0#7) :
    readRow c length s = sendCommand c s := by
  rw [readRow, if_neg (by simpa [R1Result.isZero] using h), dropUnclaimed_sendCommand]

theorem exec_cmd8_stops {s : State} (hl : s.stalled = false)
    (h : (sendCommand ⟨8#6, cmd8Argument⟩ s).r1 ≠ .answer 1#7) :
    exec .cmd8 s = .next (sendCommand ⟨8#6, cmd8Argument⟩ s) := by
  rw [exec_cmd8 hl, if_neg (by simpa [R1Result.isIdle] using h)]

theorem exec_cmd24_stops {s : State} (sector : BitVec 32) (hl : s.stalled = false)
    (h : (sendCommand ⟨24#6, sector⟩ s).r1 ≠ .answer 0#7) :
    exec (.cmd24 sector) s = .next (sendCommand ⟨24#6, sector⟩ s) := by
  rw [exec_cmd24 sector hl, if_neg (by simpa [R1Result.isZero] using h)]

/-- A frame whose argument is given by its bytes (R53 a, R71). -/
theorem commandFrame_ofBe32 (index : BitVec 6) (b1 b2 b3 b4 : Byte) :
    commandFrame index (ofBe32 b1 b2 b3 b4) = #v[frameHead index, b1, b2, b3, b4, crcByte index] := by
  apply Vector.toList_inj.mp
  rw [commandFrame_toList, be32_ofBe32]; rfl

/-- Settles O15: whatever the row, a result other than the one it goes on with leaves `sendCommand` alone, whose end
is `sendCommand_ends`. -/
theorem dataCommandsStopAtR1 : Obligations.DataCommandsStopAtR1 := by
  intro i frame goOn s ready frameIn r1In rest r b1 b2 b3 b4 hi hl hb hready hframe hr1 hc
  obtain ⟨c, hstops, rfl⟩ : ∃ c : Command,
      ((sendCommand c s).r1 ≠ .answer goOn → exec i s = .next (sendCommand c s)) ∧ c.frame = frame := by
    rcases hi with ⟨rfl, rfl, rfl⟩ | ⟨rfl, rfl, rfl⟩ | ⟨rfl, rfl, rfl⟩ | ⟨rfl, rfl, rfl⟩
    · exact ⟨⟨8#6, cmd8Argument⟩, exec_cmd8_stops hl, by decide⟩
    · exact ⟨⟨9#6, 0#32⟩, fun h => by rw [exec_cmd9 hl, readRow_stops 16 h], by decide⟩
    · exact ⟨⟨17#6, ofBe32 b1 b2 b3 b4⟩, fun h => by rw [exec_cmd17 _ hl, readRow_stops blockBytes h],
        commandFrame_ofBe32 17#6 b1 b2 b3 b4⟩
    · exact ⟨⟨24#6, ofBe32 b1 b2 b3 b4⟩, exec_cmd24_stops _ hl, commandFrame_ofBe32 24#6 b1 b2 b3 b4⟩
  obtain ⟨hr, hne⟩ : R1PollGives s.params.retryBudget r1In r ∧ r ≠ .answer goOn := by
    rcases hr1 with ⟨bits, h, hne, rfl⟩ | ⟨h, rfl⟩
    · exact ⟨.answer h, fun heq => hne (R1Result.answer.inj heq)⟩
    · exact ⟨.timeout h, R1Result.noConfusion⟩
  obtain ⟨n, k, hends⟩ := sendCommand_ends c ⟨hb, hready, hframe, hr⟩ hc
  exact ⟨n, k, by rw [hstops (by rw [hends]; exact hne), hends]⟩

/-! ## The reply of CMD8 (R117) -/

/-- Settles O16: CMD8 answered R1 == 1 goes on with `readReply`, which takes the four bytes (`readReply_bytes`). -/
theorem cmd8ReadsReply : Obligations.Cmd8ReadsReply := by
  intro s ready frameIn r1In rest b0 b1 b2 b3 hl hb hready hframe hr1 hc
  obtain ⟨n, k, hends⟩ := sendCommand_ends ⟨8#6, cmd8Argument⟩ ⟨hb, hready, hframe, .answer hr1⟩
    (rest := [b0, b1, b2, b3] ++ rest) (by simpa using hc)
  refine ⟨n, 3, ?_⟩
  rw [exec_cmd8 hl, hends, if_pos (by rfl), readReply_bytes _ b0 b1 b2 b3 rest rfl]
  simp [commandEnds, Command.frame, cmd8Argument]

/-! ## The block of CMD9 and CMD17 (R120, R121) -/

/-- The row answered R1 == 0 with the whole block after it. -/
theorem readRow_block {c : Command} {length : Nat} {s : State} {ready frameIn r1In tokenIn payload rest : List Byte}
    {crc0 crc1 : Byte} (heard : CommandHeard s.params ready frameIn r1In (.answer 0#7))
    (htoken : PollHit s.params.retryBudget isStartToken tokenIn) (hlength : payload.length = length)
    (hpos : 0 < length)
    (hc : s.card = .oracle (ready ++ frameIn ++ r1In ++ tokenIn ++ payload ++ [crc0, crc1] ++ rest)) :
    ∃ n k, readRow c length s =
      { commandEnds c.frame (.answer 0#7)
          (commandPairs c.frame ready frameIn r1In ++ received (tokenIn ++ payload ++ [crc0, crc1])) rest n k s
        with rxData := if busy s then payload else s.rxData, framerResult := .ok } := by
  obtain ⟨gap, hit, rfl, hgap, hhit, hlast⟩ := htoken
  have hbudget : gap.length < s.params.retryBudget := by simpa using hlast
  obtain rfl : hit = Config.startToken := by simpa [isStartToken] using hhit
  obtain ⟨n, k, hends⟩ := sendCommand_ends c heard
    (rest := gap ++ Config.startToken :: (payload ++ crc0 :: crc1 :: rest)) (by simpa using hc)
  refine ⟨gap.length + 1, 1, ?_⟩
  rw [readRow, hends, if_pos (by rfl), receive_block length _ gap payload rest crc0 crc1 rfl hgap
    (by exact hbudget) hlength (List.ne_nil_of_length_pos (hlength ▸ hpos))]
  cases h : busy s
  · rw [dropUnclaimed_idle _ h]; simp [commandEnds, received]
  · rw [dropUnclaimed_busy _ h]; simp [commandEnds, received]

/-- The row answered R1 == 0 and then no start token. -/
theorem readRow_noToken {c : Command} {length : Nat} {s : State} {ready frameIn r1In tokenIn rest : List Byte}
    (heard : CommandHeard s.params ready frameIn r1In (.answer 0#7))
    (htoken : PollMiss s.params.retryBudget isStartToken tokenIn)
    (hc : s.card = .oracle (ready ++ frameIn ++ r1In ++ tokenIn ++ rest)) :
    ∃ n k, readRow c length s =
      { commandEnds c.frame (.answer 0#7) (commandPairs c.frame ready frameIn r1In ++ received tokenIn) rest n k s
        with framerResult := .io } := by
  obtain ⟨n, k, hends⟩ := sendCommand_ends c heard (rest := tokenIn ++ rest)
    (by simpa using hc)
  refine ⟨s.params.retryBudget, k, ?_⟩
  rw [readRow, hends, if_pos (by rfl),
    receive_noToken length _ tokenIn rest rfl (by exact heard.budget) (by exact htoken),
    dropUnclaimed_of_kept (by rfl) (by rfl)]
  simp [commandEnds]

/-- Settles O17: CMD9 and CMD17 are `readRow` of their command and their length. -/
theorem readCommandsReceive : Obligations.ReadCommandsReceive := by
  intro i length frame s sector ready frameIn r1In tokenIn rest hi hl hb hready hframe hr1
  have heard : CommandHeard s.params ready frameIn r1In (.answer 0#7) := ⟨hb, hready, hframe, .answer hr1⟩
  obtain ⟨c, hexec, hpos, rfl⟩ : ∃ c : Command,
      exec i s = .next (readRow c length s) ∧ 0 < length ∧ c.frame = frame := by
    rcases hi with ⟨rfl, rfl, rfl⟩ | ⟨rfl, rfl, rfl⟩
    · exact ⟨⟨9#6, 0#32⟩, exec_cmd9 hl, by decide, rfl⟩
    · exact ⟨⟨17#6, sector⟩, exec_cmd17 sector hl, by decide, rfl⟩
  refine ⟨fun payload crc0 crc1 htoken hlength hc => ?_, fun htoken hc => ?_⟩
  · obtain ⟨n, k, h⟩ := readRow_block (c := c) heard htoken hlength hpos hc
    exact ⟨n, k, by rw [hexec, h]⟩
  · obtain ⟨n, k, h⟩ := readRow_noToken (c := c) (length := length) heard htoken hc
    exact ⟨n, k, by rw [hexec, h]⟩

end Sys2Proof.Machine
end

section
/-! The family of 41_command.md, CMD24 (R122): the command, the payload of the WRITE or a free one, the data response
and the busy poll. -/

namespace Sys2Proof.Machine

/-! ## The payload that goes out (log 31) -/

/-- The payload of the WRITE in progress, or a free one and one more draw; it depends on nothing else of the
state. -/
theorem supplyPayload_supplies (s : State) : ∃ (payload : Block) (draws : Nat),
    (∀ p, s.txData = some p → payload = p ∧ draws = s.draws) ∧
    ∀ t : State, t.txData = s.txData → t.draws = s.draws →
      supplyPayload t = { t with txData := some payload, draws := draws } := by
  cases hs : s.txData with
  | some own =>
    refine ⟨own, s.draws, fun p hp => ⟨Option.some.inj hp, rfl⟩, fun t htx hd => ?_⟩
    rw [supplyPayload_of_some htx, ← htx, ← hd]
  | none =>
    refine ⟨Config.freePayload s.draws, s.draws + 1, nofun, fun t htx hd => ?_⟩
    rw [supplyPayload, htx, ← hd]; rfl

/-! ## The exchanges of the block (R154) -/

/-- What is heard while an outbound block goes out: a byte with the token, one with each payload byte, and two with
the fillers. -/
theorem blockHeard_cases {blockIn : List Byte} (h : blockIn.length = 515) :
    ∃ t0 dataIn f0 f1, blockIn = t0 :: (dataIn ++ [f0, f1]) ∧ dataIn.length = blockBytes := by
  obtain ⟨t0, rest, rfl⟩ := List.exists_cons_of_length_eq_add_one h
  have hrest : rest.length = 514 := Nat.succ.inj h
  obtain ⟨f0, f1, hfillers⟩ : ∃ f0 f1, rest.drop 512 = [f0, f1] :=
    List.length_eq_two.mp (by rw [List.length_drop, hrest])
  exact ⟨t0, rest.take 512, f0, f1, by rw [← hfillers, List.take_append_drop],
    by rw [List.length_take, hrest]; rfl⟩

theorem blockPairs_eq (payload : Block) (t0 f0 f1 : Byte) {dataIn : List Byte} (h : dataIn.length = blockBytes) :
    blockPairs payload (t0 :: (dataIn ++ [f0, f1])) = [(Config.startToken, t0)] ++ payload.val.zip dataIn ++
      [(Config.crcFiller, f0), (Config.crcFiller, f1)] := by
  rw [blockPairs, outboundBytes, List.zip_cons_cons, List.zip_append (by rw [payload.property, h])]; rfl

/-! ## The row answered R1 == 0 (R122) -/

/-- After R1 == 0 the row transmits the payload supplied, and holds no copy of it afterwards. -/
theorem exec_cmd24_transmits {s : State} (sector : BitVec 32) {ready frameIn r1In rest : List Byte}
    {payload : Block} {draws : Nat} (hl : s.stalled = false)
    (heard : CommandHeard s.params ready frameIn r1In (.answer 0#7))
    (hsupply : ∀ t : State, t.txData = s.txData → t.draws = s.draws →
      supplyPayload t = { t with txData := some payload, draws := draws })
    (hc : s.card = .oracle (ready ++ frameIn ++ r1In ++ rest)) :
    ∃ n k, exec (.cmd24 sector) s = .next { transmit
      { commandEnds (commandFrame 24#6 sector) (.answer 0#7)
          (commandPairs (commandFrame 24#6 sector) ready frameIn r1In) rest n k s
        with txData := some payload, draws := draws } with txData := s.txData } := by
  obtain ⟨n, k, hends⟩ := sendCommand_ends ⟨24#6, sector⟩ heard hc
  refine ⟨n, k, ?_⟩
  rw [exec_cmd24 sector hl, hends, if_pos (by rfl), hsupply _ (by rfl) (by rfl)]
  rfl

/-- Settles O18: the row transmits what `supplyPayload_supplies`; `Transmit` is rejected, released in time or held too
long. -/
theorem cmd24Transmits : Obligations.Cmd24Transmits := by
  intro s sector ready frameIn r1In blockIn rest d hl hb hready hframe hr1 hblock
  have heard : CommandHeard s.params ready frameIn r1In (.answer 0#7) := ⟨hb, hready, hframe, .answer hr1⟩
  obtain ⟨payload, draws, hown, hsupply⟩ := supplyPayload_supplies s
  obtain ⟨t0, dataIn, f0, f1, rfl, hdata⟩ := blockHeard_cases hblock
  refine ⟨payload, draws, hown, fun hd hc => ?_, fun busyIn hd hc => ⟨fun hhit => ?_, fun hmiss => ?_⟩⟩
  · obtain ⟨n, k, hexec⟩ := exec_cmd24_transmits sector hl heard hsupply
      (rest := t0 :: (dataIn ++ f0 :: f1 :: d :: rest)) (by simpa using hc)
    refine ⟨n, 1, ?_⟩
    rw [hexec, transmit_rejected _ payload rfl t0 f0 f1 d dataIn rest rfl hdata (by simpa [isAccepting] using hd),
      blockPairs_eq payload t0 f0 f1 hdata]
    simp [commandEnds]
  · obtain ⟨misses, hit, rfl, hm, hh, hlast⟩ := hhit
    have hbudget : misses.length < s.params.retryBudget := by simpa using hlast
    obtain ⟨n, k, hexec⟩ := exec_cmd24_transmits sector hl heard hsupply
      (rest := t0 :: (dataIn ++ f0 :: f1 :: d :: (misses ++ hit :: rest))) (by simpa using hc)
    refine ⟨misses.length + 1, 1, ?_⟩
    rw [hexec, transmit_released _ payload rfl t0 f0 f1 d hit dataIn misses rest rfl hdata
      (by simpa [isAccepting] using hd) hm hh (by exact hbudget), blockPairs_eq payload t0 f0 f1 hdata]
    simp [commandEnds, received]
  · obtain ⟨n, k, hexec⟩ := exec_cmd24_transmits sector hl heard hsupply
      (rest := t0 :: (dataIn ++ f0 :: f1 :: d :: (busyIn ++ rest))) (by simpa using hc)
    refine ⟨s.params.retryBudget, 1, ?_⟩
    rw [hexec, transmit_busy _ payload rfl t0 f0 f1 d dataIn busyIn rest rfl (by exact hb) hdata
      (by simpa [isAccepting] using hd) (by exact hmiss), blockPairs_eq payload t0 f0 f1 hdata]
    simp [commandEnds, received]

end Sys2Proof.Machine
end

section
/-! The family of 41_command.md, single engine steps: the R1 that ends its poll (R114, R138) and the bytes that are
discarded (R83 g, R112, R154). -/

namespace Sys2Proof.Machine

/-! ## The R1 that ends the poll (R114) -/

/-- The R1 poll has ended with these bits: they are latched and the pair is recorded. -/
def r1Latched (bits : BitVec 7) (s : State) : State :=
  endProcedure { record 0xFF#8 (r1Byte bits) s with n := s.n + 1, r1 := .answer bits }

theorem react_r1 (length : Nat) (bits : BitVec 7) {s : State} (hs : s.phase.sub = .cmdR1) :
    react length (r1Byte bits) s = endProcedure { s with n := s.n + 1, r1 := .answer bits } := by
  simp [react, hs, reactR1, pollStep, isR1_r1Byte, r1Byte_bits]

/-- An R1 received is latched, and the operation in progress goes on. -/
theorem exec_r1 (bits : BitVec 7) {s : State} (hs : s.phase.sub = .cmdR1) (hb : busy s = true)
    (hl : s.stalled = false) : exec (.r1 bits) s = .next (afterCommand (r1Latched bits s)) := by
  have hreact : react (rxLength s.phase.top) (r1Byte bits) (record (outByte s) (r1Byte bits) (latchFrame s)) =
      r1Latched bits s := by
    rw [latchFrame_elsewhere (by simp [hs]), outByte_poll (by simp [hs, SubPhase.polls])]
    exact react_r1 _ bits hs
  have hstep := engineStep_returns hb hreact rfl
  rw [hs] at hstep
  exact (receiveBytes_single _ hb hl).trans (congrArg _ hstep)

/-- Of what the callers of `Receive` and of the reply touch, the caller of a command leaves the register, the payload
while the operation goes on, and outside IdleWait the count of iterations. -/
theorem ResumesTo.command_kept {v t : State} (h : ResumesTo .cmdR1 v t) :
    t.csd = v.csd ∧ (busy t = true → t.rxData = v.rxData ∧ t.txData = v.txData) ∧
      (v.phase.top ≠ .initIdleWait → t.it = v.it) := by
  cases h with
  | replyPassed _ group | replyFailed _ group => cases group
  | registerMissing _ group | registerForeign _ group | registerReady _ group | readDelivered _ group
  | readMissing _ group => simp at group
  | writeStored _ group | writeFailed _ group => simp [SubPhase.inData] at group
  | resetFailed | voltageRefused | prefixTimedOut | registerRefused | readRefused | writeRefused | abandoned =>
    exact ⟨rfl, nofun, fun _ => rfl⟩
  | waitTimedOut top | waitExhausted top => exact ⟨rfl, nofun, fun hv => absurd top hv⟩
  | waitOver top | waitAgain top => exact ⟨rfl, fun _ => ⟨rfl, rfl⟩, fun hv => absurd top hv⟩
  | _ => exact ⟨rfl, fun _ => ⟨rfl, rfl⟩, fun _ => rfl⟩

/-! ### The rows of R138 -/

theorem isIdle_answer (bits : BitVec 7) : (R1Result.answer bits).isIdle = decide (bits = 1#7) :=
  Bool.eq_iff_iff.mpr (by simp [R1Result.isIdle])

theorem isZero_answer (bits : BitVec 7) : (R1Result.answer bits).isZero = decide (bits = 0#7) :=
  Bool.eq_iff_iff.mpr (by simp [R1Result.isZero])

section
variable {bits : BitVec 7} {s : State}

/-- Reset (R131). -/
theorem afterCommand_reset (h : s.phase.top = .initReset) : afterCommand (r1Latched bits s) =
    if bits = 1#7 then
      startCommand .initVoltage false { r1Latched bits s with dev := { s.dev with present := true } }
    else doneInit .notPresent (r1Latched bits s) := by
  simp [afterCommand, r1Latched, h, afterReset, isIdle_answer]

/-- VoltageCheck (R132). -/
theorem afterCommand_voltage (h : s.phase.top = .initVoltage) : afterCommand (r1Latched bits s) =
    if bits = 1#7 then startRun .r7Bytes (r1Latched bits s) else doneInit .unsupported (r1Latched bits s) := by
  simp [afterCommand, r1Latched, h, afterInterfaceCondition, isIdle_answer]

/-- IdleWait, CMD55: the R1 is not examined (R118, D11). -/
theorem afterCommand_cmd55 (h : s.phase.top = .initIdleWait) (ha : s.phase.acmd = false) :
    afterCommand (r1Latched bits s) = startCommand .initIdleWait true (r1Latched bits s) := by
  simp [afterCommand, r1Latched, h, ha, afterPrefix, R1Result.isTimeout]

/-- IdleWait, ACMD41 (R133). -/
theorem afterCommand_acmd41 (h : s.phase.top = .initIdleWait) (ha : s.phase.acmd = true) :
    afterCommand (r1Latched bits s) =
      if bits ≠ 1#7 then startCommand .initReadReg false { r1Latched bits s with it := s.it + 1 }
      else if s.params.initBudget ≤ s.it + 1 then doneInit .failed { r1Latched bits s with it := s.it + 1 }
      else startCommand .initIdleWait false { r1Latched bits s with it := s.it + 1 } := by
  by_cases hbound : s.params.initBudget ≤ s.it + 1 <;>
    simp [afterCommand, r1Latched, h, ha, afterIdleWait, R1Result.isTimeout, isIdle_answer, idleWaitExhausted, hbound]

/-- ReadRegister (R134). -/
theorem afterCommand_readRegister (h : s.phase.top = .initReadReg) : afterCommand (r1Latched bits s) =
    if bits = 0#7 then startReceive (r1Latched bits s) else doneInit .failed (r1Latched bits s) := by
  simp [afterCommand, r1Latched, h, afterReadRegister, isZero_answer]

/-- READ (R177). -/
theorem afterCommand_read (h : s.phase.top = .opRead) : afterCommand (r1Latched bits s) =
    if bits = 0#7 then startReceive (r1Latched bits s) else fail .io (dropPayload (r1Latched bits s)) := by
  simp [afterCommand, r1Latched, h, afterReadCommand, isZero_answer]

/-- WRITE (R178). -/
theorem afterCommand_write (h : s.phase.top = .opWrite) : afterCommand (r1Latched bits s) =
    if bits = 0#7 then goto .txToken (r1Latched bits s) else fail .io (dropPayload (r1Latched bits s)) := by
  simp [afterCommand, r1Latched, h, afterWriteCommand, isZero_answer]

end

/-- Settles O20: the R1 is latched and the caller decides (`exec_r1`), row by row; what no caller touches is
`returnFrom_frame`, the rest `ResumesTo.command_kept`. -/
theorem r1EndsThePoll : Obligations.R1EndsThePoll := by
  intro bits s hs hb hl
  have hframe : CallerFrame (r1Latched bits s) (afterCommand (r1Latched bits s)) := returnFrom_frame .cmdR1 _
  have hresume : ResumesTo .cmdR1 (r1Latched bits s) (afterCommand (r1Latched bits s)) :=
    returnFrom_resumesTo .cmdR1 _ hb nofun
  obtain ⟨hcsd, hpayload, hit⟩ := hresume.command_kept
  refine ⟨_, exec_r1 bits hs hb hl, hframe.r1, hframe.history, hcsd, hframe.r7, hframe.frame, hframe.params,
    hpayload, returnFrom_drops .cmdR1 _, hframe.framerResult, hframe.card, hframe.draws, hframe.request,
    hframe.script, hframe.stalled, hit, fun ht => ?_, fun ht => ?_, fun ht ha => ?_, fun ht ha => ?_, fun ht => ?_,
    fun ht => ?_, fun ht => ?_⟩
  · rw [afterCommand_reset ht]
    split <;> rename_i h
    · exact ⟨rfl, fun _ => ⟨rfl, rfl⟩, fun hne => absurd h hne⟩
    · exact ⟨rfl, fun heq => absurd heq h, fun _ => ⟨rfl, rfl⟩⟩
  · rw [afterCommand_voltage ht]
    split <;> rename_i h
    · exact ⟨rfl, fun _ => ⟨rfl, rfl, rfl⟩, fun hne => absurd h hne⟩
    · exact ⟨rfl, fun heq => absurd heq h, fun _ => ⟨rfl, rfl⟩⟩
  · rw [afterCommand_cmd55 ht ha]
    exact ⟨rfl, rfl, rfl, rfl⟩
  · rw [afterCommand_acmd41 ht ha]
    split <;> rename_i h
    · exact ⟨rfl, rfl, fun _ => ⟨rfl, rfl⟩, fun heq => absurd heq h, fun heq => absurd heq h⟩
    · split <;> rename_i hbound
      · exact ⟨rfl, rfl, fun hne => absurd hne h, fun _ hlt => absurd hbound (Nat.not_le_of_lt hlt),
          fun _ _ => ⟨rfl, rfl⟩⟩
      · exact ⟨rfl, rfl, fun hne => absurd hne h, fun _ _ => ⟨rfl, rfl⟩,
          fun _ heq => absurd (Nat.le_of_eq heq.symm) hbound⟩
  · rw [afterCommand_readRegister ht]
    split <;> rename_i h
    · exact ⟨rfl, fun _ => ⟨rfl, rfl, rfl⟩, fun hne => absurd h hne⟩
    · exact ⟨rfl, fun heq => absurd heq h, fun _ => ⟨rfl, rfl⟩⟩
  · rw [afterCommand_read ht]
    split <;> rename_i h
    · exact ⟨rfl, fun _ => ⟨rfl, rfl, rfl⟩, fun hne => absurd h hne⟩
    · exact ⟨rfl, fun heq => absurd heq h, fun _ => ⟨rfl, rfl⟩⟩
  · rw [afterCommand_write ht]
    split <;> rename_i h
    · exact ⟨rfl, fun _ => ⟨rfl, rfl⟩, fun hne => absurd h hne⟩
    · exact ⟨rfl, fun heq => absurd heq h, fun _ => ⟨rfl, rfl⟩⟩

/-! ## Bytes received while the engine sends (R83 g) -/

/-- The control points where the engine sends and does not look at what it receives. -/
def SubPhase.Discards (sub : SubPhase) : Prop :=
  sub = .cmdFrame ∨ sub = .txToken ∨ sub = .txPayload ∨ sub = .txCrc

theorem react_discards (length : Nat) (i j : Byte) {s : State} (h : s.phase.sub.Discards) :
    react length i s = react length j s := by
  rcases h with h | h | h | h <;> simp [react, h]

theorem SubPhase.Discards.ne_none {sub : SubPhase} (h : sub.Discards) : sub ≠ .none := by
  rcases h with rfl | rfl | rfl | rfl <;> exact nofun

/-- None of them is the last control point of its procedure. -/
theorem react_discards_sub (length : Nat) (i : Byte) {s : State} (h : s.phase.sub.Discards) :
    (react length i s).phase.sub ≠ .none := by
  intro hend
  have hplace := (react_reactsTo length i s h.ne_none).ended h.ne_none hend
  rcases h with h | h | h | h <;> simp [h] at hplace

theorem engineStep_discards (i : Byte) {s : State} (hb : busy s = true) (h : s.phase.sub.Discards) :
    engineStep i s = react (rxLength s.phase.top) i (record (outByte s) i s) := by
  have hl : latchFrame s = s := latchFrame_elsewhere (by rcases h with h | h | h | h <;> simp [h])
  exact engineStep_within hb (by rw [hl]) (react_discards_sub _ i h)

/-- Whatever ignores the run ignores the record. -/
theorem IgnoresRun.withHistory {f : State → State} {s : State} (h : IgnoresRun f s)
    (history : List (Byte × Byte)) : f { s with history := history } = { f s with history := history } := by
  obtain ⟨added, h⟩ := h
  have hown := h s.card s.draws s.history s.responses
  calc f { s with history := history }
      = { inRun s.card s.draws s.history (s.responses ++ added) (f s) with history := history } :=
        h s.card s.draws history s.responses
    _ = { f s with history := history } := by rw [← hown]; rfl

/-- Settles O33: the reaction does not look at the byte (`react_discards`) and nothing in it at the record. -/
theorem discardedBytes : Obligations.DiscardedBytes := by
  intro s i j hb h
  rw [engineStep_discards i hb h, engineStep_discards j hb h]
  constructor
  · calc react (rxLength s.phase.top) j (record (outByte s) j s)
        = react (rxLength s.phase.top) i (record (outByte s) j s) := react_discards _ j i h
      _ = { react (rxLength s.phase.top) i (record (outByte s) i s) with
            history := s.history ++ [(outByte s, j)] } :=
          (react_ignoresRun _ i (record (outByte s) i s)).withHistory _
  · rw [busy, (react_frame _ _ _).top]
    exact hb

end Sys2Proof.Machine
end

section
/-! The family of 42_init.md, what a busy engine receives: the reply bytes (R132), the payload of an inbound block and
its CRC positions (R152, R153), and what VoltageCheck, ReadRegister and READ make of them. -/

namespace Sys2Proof.Machine

/-! ## One byte received inside a procedure -/

section
variable {s : State} {i : Byte}

/-- Where the engine only receives, an engine step records the filler it sends and reacts. -/
theorem engineStep_receives (hb : busy s = true)
    (hs : s.phase.sub = .r7Bytes ∨ s.phase.sub = .rxPayload ∨ s.phase.sub = .rxCrc) :
    engineStep i s = reactAndReturn s.phase.sub (rxLength s.phase.top) i (record Config.fill i s) := by
  have ho : outByte s = Config.fill := by rcases hs with hs | hs | hs <;> simp [outByte, hs]
  have hl : latchFrame s = s := latchFrame_elsewhere (by rcases hs with hs | hs | hs <;> simp [hs])
  rw [engineStep_eq_reactAndReturn i hb, ho, hl]

theorem engineStep_reply_goes (hb : busy s = true) (hs : s.phase.sub = .r7Bytes) (hk : s.k < 3) :
    engineStep i s = { record Config.fill i s with r7 := s.r7.setIfInBounds s.k i, k := s.k + 1 } := by
  have hmore : ¬ 4 ≤ s.k + 1 := by omega
  simp [engineStep_receives hb (.inl hs), reactAndReturn, react, hs, reactReply, runStep, runComplete, hmore]

/-- After the last reply byte its caller decides (R132). -/
theorem engineStep_reply_ends (hb : busy s = true) (hs : s.phase.sub = .r7Bytes) (hk : s.k = 3) :
    engineStep i s =
      afterReplyBytes (endProcedure { record Config.fill i s with r7 := s.r7.setIfInBounds 3 i }) := by
  simp [engineStep_receives hb (.inl hs), reactAndReturn, react, hs, reactReply, runStep, runComplete, hk, returnFrom]

theorem engineStep_payload_goes (hb : busy s = true) (hs : s.phase.sub = .rxPayload)
    (hk : s.k + 1 < rxLength s.phase.top) :
    engineStep i s = { record Config.fill i s with rxData := s.rxData ++ [i], k := s.k + 1 } := by
  have hmore : ¬ rxLength s.phase.top ≤ s.k + 1 := Nat.not_le_of_lt hk
  simp [engineStep_receives hb (.inr (.inl hs)), reactAndReturn, react, hs, reactPayload, runStep, runComplete, hmore]

/-- After the last payload byte come the CRC positions (R153). -/
theorem engineStep_payload_ends (hb : busy s = true) (hs : s.phase.sub = .rxPayload)
    (hk : s.k + 1 = rxLength s.phase.top) :
    engineStep i s = startRun .rxCrc { record Config.fill i s with rxData := s.rxData ++ [i] } := by
  have hlast : rxLength s.phase.top ≤ s.k + 1 := Nat.le_of_eq hk.symm
  simp [engineStep_receives hb (.inr (.inl hs)), reactAndReturn, react, hs, reactPayload, runStep, runComplete, hlast]

theorem engineStep_crc_goes (hb : busy s = true) (hs : s.phase.sub = .rxCrc) (hk : s.k = 0) :
    engineStep i s = { record Config.fill i s with k := 1 } := by
  simp [engineStep_receives hb (.inr (.inr hs)), reactAndReturn, react, hs, reactRxCrc, runStep, runComplete, hk]

/-- After the second CRC byte `Receive` returns Ok to its caller (R153). -/
theorem engineStep_crc_ends (hb : busy s = true) (hs : s.phase.sub = .rxCrc) (hk : s.k = 1) :
    engineStep i s = afterReceive (endFramer .ok (record Config.fill i s)) := by
  simp [engineStep_receives hb (.inr (.inr hs)), reactAndReturn, react, hs, reactRxCrc, runStep, runComplete, hk,
    returnFrom]

end

/-! ## Whole formats received -/

theorem deliver_cons (b : Byte) (bytes : List Byte) (s : State) :
    deliver (b :: bytes) s = deliver bytes (engineStep b s) := rfl

theorem deliver_append (bytes more : List Byte) (s : State) :
    deliver (bytes ++ more) s = deliver more (deliver bytes s) := List.foldl_append

/-- Four bytes written one after the other are the whole latch, whatever it held. -/
theorem replyLatch_filled (r7 : Vector Byte 4) (b0 b1 b2 b3 : Byte) :
    (((r7.setIfInBounds 0 b0).setIfInBounds 1 b1).setIfInBounds 2 b2).setIfInBounds 3 b3 = #v[b0, b1, b2, b3] := by
  apply Vector.ext
  intro j hj
  have hcases : j = 0 ∨ j = 1 ∨ j = 2 ∨ j = 3 := by omega
  rcases hcases with rfl | rfl | rfl | rfl <;> simp

/-- The reply bytes have been read: they are latched and the procedure has ended (R117). -/
def replyRead (b0 b1 b2 b3 : Byte) (s : State) : State :=
  endProcedure
    { s with k := 3, r7 := #v[b0, b1, b2, b3], history := s.history ++ received [b0, b1, b2, b3] }

theorem deliver_reply (b0 b1 b2 b3 : Byte) {s : State} (hb : busy s = true) (hs : s.phase.sub = .r7Bytes)
    (hk : s.k = 0) : deliver [b0, b1, b2, b3] s = afterReplyBytes (replyRead b0 b1 b2 b3 s) := by
  rw [deliver_cons, engineStep_reply_goes hb hs (by omega), deliver_cons,
    engineStep_reply_goes (by exact hb) (by exact hs) (by simp [hk]), deliver_cons,
    engineStep_reply_goes (by exact hb) (by exact hs) (by simp [hk]), deliver_cons,
    engineStep_reply_ends (by exact hb) (by exact hs) (by simp [hk])]
  rw [replyRead, ← replyLatch_filled s.r7 b0 b1 b2 b3]
  simp [deliver, record, received, hk]

/-- The payload of an inbound block is taken verbatim (R152). -/
theorem deliver_payload (bytes : List Byte) : ∀ {s : State}, busy s = true → s.phase.sub = .rxPayload →
    bytes ≠ [] → s.k + bytes.length = rxLength s.phase.top →
    deliver bytes s =
      startRun .rxCrc { s with rxData := s.rxData ++ bytes, history := s.history ++ received bytes } := by
  induction bytes with
  | nil => exact fun _ _ h => absurd rfl h
  | cons b bytes ih =>
    intro s hb hs _ hk
    rw [deliver_cons]
    by_cases hlast : bytes = []
    · subst hlast
      rw [engineStep_payload_ends hb hs hk]; rfl
    · have hpos : 0 < bytes.length := List.length_pos_iff.mpr hlast
      rw [List.length_cons] at hk
      rw [engineStep_payload_goes hb hs (by omega), ih (by exact hb) (by exact hs) hlast (by simp; omega)]
      simp [record, received, startRun, goto]

theorem deliver_crc (crc0 crc1 : Byte) {s : State} (hb : busy s = true) (hs : s.phase.sub = .rxCrc) (hk : s.k = 0) :
    deliver [crc0, crc1] s =
      afterReceive (endFramer .ok { s with k := 1, history := s.history ++ received [crc0, crc1] }) := by
  rw [deliver_cons, engineStep_crc_goes hb hs hk, deliver_cons,
    engineStep_crc_ends (by exact hb) (by exact hs) rfl]
  simp [deliver, record, received]

/-- An inbound block has been received: `Receive` has returned Ok (R150). -/
def blockReceived (payload : List Byte) (crc0 crc1 : Byte) (s : State) : State :=
  endFramer .ok
    { s with
      n := s.n + 1, k := 1, rxData := payload
      history := s.history ++ received (inboundBytes payload crc0 crc1) }

/-- A whole inbound block, from the start-token poll on (R150 to R153). -/
theorem deliver_block (payload : List Byte) (crc0 crc1 : Byte) {s : State} (hb : busy s = true)
    (hs : s.phase.sub = .rxToken) (hl : payload.length = rxLength s.phase.top) :
    deliver (inboundBytes payload crc0 crc1) s = afterReceive (blockReceived payload crc0 crc1 s) := by
  have hpos : 0 < rxLength s.phase.top := by cases s.phase.top <;> decide
  rw [inboundBytes, deliver_cons, deliver_append, engineStep_start_received hb hs,
    deliver_payload payload (by exact hb) rfl (List.ne_nil_of_length_pos (hl ▸ hpos)) (by simpa using hl),
    deliver_crc crc0 crc1 (by exact hb) rfl rfl]
  simp [blockReceived, inboundBytes, record, received, startPayload, startRun, endFramer, endProcedure, goto,
    Config.startToken, Config.fill]

/-! ## The reply decides (R132) -/

theorem receiveBytes_busy (bytes : List Byte) {s : State} (hb : busy s = true) (hl : s.stalled = false) :
    receiveBytes bytes s = .next (deliver bytes s) := by
  rw [receiveBytes, if_pos hb, afterExchanges_live _ hl]

theorem exec_r7 (b0 b1 b2 b3 : Byte) {s : State} (hb : busy s = true) (hl : s.stalled = false) :
    exec (.r7 b0 b1 b2 b3) s = .next (deliver [b0, b1, b2, b3] s) :=
  receiveBytes_busy _ hb hl

/-- The check on the reply bytes, on numbers: the other bits are not examined (R75). -/
theorem replyAccepted_iff (b0 b1 b2 b3 : Byte) :
    replyAccepted #v[b0, b1, b2, b3] = true ↔ b2.toNat % 16 = 1 ∧ b3 = 0xA5#8 := by
  have nibble : ∀ b : Byte, b &&& 0x0F#8 = 0x01#8 ↔ b.toNat % 16 = 1 := by decide
  simp [replyAccepted, ← nibble]

/-- Settles O23: the four bytes are latched (`deliver_reply`), and VoltageCheck decides on bytes 2 and 3
(`replyAccepted_iff`). -/
theorem replyDecidesVoltage : Obligations.ReplyDecidesVoltage := by
  intro b0 b1 b2 b3 s hphase hk hl
  have htop : s.phase.top = .initVoltage := by rw [hphase]
  have hsub : s.phase.sub = .r7Bytes := by rw [hphase]
  have hb : busy s = true := by simp [busy, htop]
  have hcaller : afterReplyBytes (replyRead b0 b1 b2 b3 s) = afterReply (replyRead b0 b1 b2 b3 s) := by
    have : (replyRead b0 b1 b2 b3 s).phase.top = .initVoltage := htop
    rw [afterReplyBytes, this]
  have hr7 : (replyRead b0 b1 b2 b3 s).r7 = #v[b0, b1, b2, b3] := rfl
  rw [exec_r7 b0 b1 b2 b3 hb hl, deliver_reply b0 b1 b2 b3 hb hsub hk, hcaller, afterReply, hr7]
  by_cases h : b2.toNat % 16 = 1 ∧ b3 = 0xA5#8
  · refine ⟨s.n, 0, ?_⟩
    rw [if_pos h, if_pos ((replyAccepted_iff b0 b1 b2 b3).mpr h)]; rfl
  · refine ⟨s.n, 3, ?_⟩
    rw [if_neg h, if_neg (mt (replyAccepted_iff b0 b1 b2 b3).mp h)]; rfl

/-! ## The inbound block is taken (R134 to R136, R177) -/

/-- The Device State once the register has been decoded: Ready with its capacity, or Unsupported (R135, R136). -/
def deviceDecoded (p : Params) (register : Csd) (dev : DeviceState) : DeviceState :=
  if register[0].extractLsb' 6 2 = p.csdHcStruct then
    { dev with
      initialized := true, initResult := .ready, blockSize := 512#33
      blockCount := csdCount p register, position := p.readyPosition }
  else { dev with initResult := .unsupported }

/-- INIT over, with the register latched and decoded (R134 to R136). -/
def registerDecoded (register : Csd) (s : State) : State :=
  { dropPayload s with csd := register, dev := deviceDecoded s.params register s.dev, phase := Phase.idle }

theorem latchCsd_register {s : State} {register : Csd} (h : s.rxData = register.toList) :
    latchCsd s = { s with csd := register } := by
  have hl : s.rxData.length = 16 := by rw [h, Vector.length_toList]
  have hlatch : (⟨⟨s.rxData⟩, hl⟩ : Csd) = register := Vector.toList_inj.mp h
  rw [latchCsd, dif_pos hl, hlatch]

theorem decodeRegisterLatch_eq (s : State) : decodeRegisterLatch s = registerDecoded s.csd s := by
  unfold decodeRegisterLatch csdDecode registerDecoded deviceDecoded csdStructure
  by_cases h : s.csd[0].extractLsb' 6 2 = s.params.csdHcStruct
  · simp only [h, if_true]; rfl
  · simp only [h, if_false]; rfl

/-- ReadRegister, after `Receive(16)` has returned the register. -/
theorem afterReceive_register {s : State} {register : Csd} (ht : s.phase.top = .initReadReg)
    (hf : s.framerResult = .ok) (hd : s.rxData = register.toList) :
    afterReceive s = registerDecoded register s := by
  rw [afterReceive, ht]
  simp only [afterRegisterBlock, hf, if_true, latchCsd_register hd, decodeRegisterLatch_eq]
  simp [registerDecoded, dropPayload, hf]

/-- READ, after `Receive(512)` has returned the sector. -/
theorem afterReceive_sector {s : State} (ht : s.phase.top = .opRead) (hf : s.framerResult = .ok) :
    afterReceive s = respond (.data s.rxData) (dropPayload (advancePosition s)) := by
  rw [afterReceive, ht]
  simp [afterReadBlock, hf]

theorem exec_rxblock (payload : List Byte) (crc0 crc1 : Byte) {s : State} (hb : busy s = true)
    (hl : s.stalled = false) :
    exec (.rxblock payload crc0 crc1) s = .next (deliver (inboundBytes payload crc0 crc1) s) :=
  receiveBytes_busy _ hb hl

/-- Settles O27: the block is received (`deliver_block`), and READ delivers it or ReadRegister decodes it. -/
theorem inboundBlockIsTaken : Obligations.InboundBlockIsTaken := by
  refine fun s crc0 crc1 hs hl =>
    ⟨fun payload ht hlength => ⟨s.n + 1, 1, ?_⟩, fun register ht => ⟨s.n + 1, 1, ?_⟩⟩
  · have hb : busy s = true := by simp [busy, ht]
    rw [exec_rxblock payload crc0 crc1 hb hl, deliver_block payload crc0 crc1 hb hs (by rw [ht]; exact hlength),
      afterReceive_sector (by exact ht) rfl]
    rfl
  · have hb : busy s = true := by simp [busy, ht]
    rw [exec_rxblock _ crc0 crc1 hb hl, deliver_block _ crc0 crc1 hb hs (by rw [ht]; exact register.length_toList),
      afterReceive_register (by exact ht) rfl rfl]
    rfl

/-! ## The CSD, and whatever is answered after it (R153) -/

/-- Two engine steps against the card in the CRC positions are two bytes delivered: some card, after some free
values. -/
theorem discardCrc_eq {s : State} (hb : busy s = true) (hs : s.phase.sub = .rxCrc) (hk : s.k = 0) :
    ∃ crc0 crc1 card draws, discardCrc s = deliver [crc0, crc1] { s with card := card, draws := draws } := by
  have hfirst : tick s = { record Config.fill (cardByte s) (cardMoves s) with k := 1 } := by
    rw [tick_busy hb]; exact engineStep_crc_goes (s := cardMoves s) hb hs hk
  have hb' : busy (tick s) = true := by rw [hfirst]; exact hb
  have hs' : (tick s).phase.sub = .rxCrc := by rw [hfirst]; exact hs
  have hk' : (tick s).k = 1 := by rw [hfirst]
  refine ⟨cardByte s, cardByte (tick s), (cardMoves (tick s)).card, (cardMoves (tick s)).draws, ?_⟩
  have hsecond : discardCrc s = tick (tick s) := by simp [discardCrc, hs, hs']
  rw [hsecond, tick_busy hb', engineStep_crc_ends (s := cardMoves (tick s)) hb' hs' hk',
    deliver_crc _ _ (by exact hb) (by exact hs) (by exact hk)]
  generalize cardByte (tick s) = c1
  simp [hfirst, record, received, endFramer, endProcedure, goto, cardMoves]

theorem exec_csd (register : Csd) {s : State} (hb : busy s = true) (hl : s.stalled = false) :
    exec (.csd register) s = .next (discardCrc (deliver register.toList s)) := by
  rw [exec, execCsd, if_pos hb, afterExchanges_live _ hl]

/-- The sixteen bytes of the register received as a payload (R80, R152). -/
theorem deliver_register (register : Csd) {s : State} (ht : s.phase.top = .initReadReg)
    (hs : s.phase.sub = .rxPayload) (hk : s.k = 0) :
    deliver register.toList s = startRun .rxCrc
      { s with rxData := s.rxData ++ register.toList, history := s.history ++ received register.toList } := by
  have hlength : register.toList.length = 16 := register.length_toList
  exact deliver_payload _ (by simp [busy, ht]) hs (List.ne_nil_of_length_pos (by omega))
    (by rw [ht, hk, hlength]; rfl)

/-- Settles O29: the sixteen bytes are the payload (`deliver_register`), two exchanges discard the CRC positions
(`discardCrc_eq`), and ReadRegister decodes (`afterReceive_register`). -/
theorem csdIsDecoded : Obligations.CsdIsDecoded := by
  intro register s hphase hk hd hl
  have ht : s.phase.top = .initReadReg := by rw [hphase]
  have hs : s.phase.sub = .rxPayload := by rw [hphase]
  have hb : busy s = true := by simp [busy, ht]
  rw [exec_csd register hb hl, deliver_register register ht hs hk, hd, List.nil_append]
  obtain ⟨crc0, crc1, card, draws, h⟩ := discardCrc_eq (s := startRun .rxCrc
    { s with rxData := register.toList, history := s.history ++ received register.toList }) hb rfl rfl
  refine ⟨crc0, crc1, card, draws, 1, ?_⟩
  rw [h, deliver_crc crc0 crc1 (by exact hb) rfl rfl, afterReceive_register (by exact ht) rfl rfl]
  simp [registerDecoded, deviceDecoded, dropPayload, endFramer, endProcedure, startRun, goto, received]

end Sys2Proof.Machine
end

section
/-! The family of 42_init.md, steps and meanings: the steps of the machine run the received formats and the block it
sends (00_scope.md section 5), and the commands of every operation with the decision of their caller (R131 to R134,
R177, R178). -/

namespace Sys2Proof.Machine

/-! ## The steps run what the card answers -/

/-- An engine step leaves the card to itself: the byte received is all it takes of it (R51). -/
theorem engineStep_withCard (i : Byte) {s : State} (hb : busy s = true) (card : Card) :
    engineStep i { s with card := card } = { engineStep i s with card := card } := by
  obtain ⟨added, h⟩ := engineStep_inRun i hb
  have hown := h s.card s.draws s.history s.responses
  calc engineStep i { s with card := card }
      = { inRun s.card s.draws (s.history ++ [(outByte s, i)]) (s.responses ++ added) (engineStep i s) with
          card := card } := h card s.draws s.history s.responses
    _ = { engineStep i s with card := card } := by rw [← hown]; rfl

/-- The steps against a card that answers these bytes take them one by one. That the engine takes all of them, and is
not IDLE before, shows in its history. -/
theorem reaches_deliver (rest : List Byte) (bytes : List Byte) : ∀ {s : State}, s.request = none →
    s.stalled = false → s.card = .oracle (bytes ++ rest) →
    (deliver bytes { s with card := .oracle rest }).history.length = s.history.length + bytes.length →
    Reaches s (deliver bytes { s with card := .oracle rest }) := by
  induction bytes with
  | nil =>
    intro s _ _ hc _
    have hs : { s with card := .oracle rest } = s := by rw [← (show s.card = .oracle rest from hc)]
    rw [hs]
    exact Reaches.refl s
  | cons b bytes ih =>
    intro s hr hl hc htaken
    cases hb : busy s with
    | false =>
      rw [deliver_idle _ (s := { s with card := .oracle rest }) hb] at htaken
      simp at htaken
    | true =>
      obtain ⟨hframe, hstep⟩ : StepFrame b s (engineStep b s) ∧
          step s = .next { engineStep b s with card := .oracle (bytes ++ rest) } := by
        refine ⟨engineStep_frame b hb, ?_⟩
        have hreceives := receiveBytes_single b (s := { s with card := .oracle (bytes ++ rest) }) hb hl
        rw [engineStep_withCard b hb] at hreceives
        exact (step_oracle hb hr hc).trans hreceives
      rw [deliver_cons, engineStep_withCard b hb] at htaken ⊢
      refine Reaches.head hstep (ih (hframe.request.trans hr) (hframe.stalled.trans hl) rfl ?_)
      rw [htaken, hframe.history, List.length_append, List.length_cons, List.length_singleton]
      omega

theorem reaches_tick {s : State} (hr : s.request = none) (hl : s.stalled = false) : Reaches s (tick s) := by
  cases hb : busy s with
  | false => rw [tick_idle hb]; exact Reaches.refl s
  | true => exact Reaches.head (step_busy hb (presented_eq_none_of_request hr) hl) (Reaches.refl _)

theorem reaches_discardCrc {s : State} (hr : s.request = none) (hl : s.stalled = false) :
    Reaches s (discardCrc s) := by
  have hfirst := reaches_tick hr hl
  unfold discardCrc
  split
  · dsimp only
    split
    · exact hfirst.trans (reaches_tick ((tick_request s).trans hr) ((tick_stalled s).trans hl))
    · exact hfirst
  · exact Reaches.refl s

/-! ## The steps run the block that the engine sends (R154) -/

/-- The exchanges an outbound block still makes up to the data-response byte, that one included. -/
def transmitLeast (s : State) : Nat :=
  match s.phase.sub with
  | .txToken => 1 + blockBytes + 2 + 1
  | .txPayload => runLeft blockBytes s + 2 + 1
  | .txCrc => runLeft 2 s + 1
  | .txResp => 1
  | _ => 0

/-- One exchange takes at most one off it. -/
theorem transmitLeast_reactsTo {length : Nat} {i : Byte} {s t : State} (h : ReactsTo length i s t) :
    transmitLeast s ≤ transmitLeast t + 1 := by
  cases h with
  | accepted sub | rejected sub => simp [transmitLeast, sub]
  | txTokenGoes sub | txPayloadGoes sub _ | txPayloadEnds sub _ | txCrcGoes sub _ | txCrcEnds sub _ =>
    simp only [transmitLeast, runLeft, sub]; omega
  | _ => simp [transmitLeast, *]

/-- Where such exchanges are left, the engine is inside `Transmit`, for which the length of an inbound payload plays
no part. -/
theorem react_transmit (length length' : Nat) (i : Byte) {s : State} (h : 0 < transmitLeast s) :
    react length i s = react length' i s := by
  cases hs : s.phase.sub with
  | rxPayload => simp [transmitLeast, hs] at h
  | _ => simp [react, hs]

theorem sub_of_transmitLeast {s : State} (h : 0 < transmitLeast s) :
    s.phase.sub ≠ .none ∧ s.phase.sub ≠ .cmdReady := by
  constructor <;> intro hs <;> simp [transmitLeast, hs] at h

/-- The steps make the exchanges of an outbound block, short of the data-response byte. -/
theorem reaches_transmit (fuel : Nat) : ∀ {s : State}, busy s = true → s.request = none → s.stalled = false →
    fuel < transmitLeast s → Reaches s (procedureSteps blockBytes fuel s) := by
  induction fuel with
  | zero => exact fun _ _ _ _ => Reaches.refl _
  | succ fuel ih =>
    intro s hb hr hl hfuel
    obtain ⟨hsub, hready⟩ := sub_of_transmitLeast (Nat.zero_lt_of_lt hfuel)
    have hleast : transmitLeast s ≤ transmitLeast (procedureTick blockBytes s) + 1 :=
      transmitLeast_reactsTo (s := record (outByte (cardMoves s)) (cardByte s) (cardMoves s))
        (procedureTick_reactsTo blockBytes hsub)
    have hnext : fuel < transmitLeast (procedureTick blockBytes s) := by omega
    have hsame : procedureTick (rxLength s.phase.top) s = procedureTick blockBytes s :=
      react_transmit _ _ _ (s := record (outByte (cardMoves s)) (cardByte s) (cardMoves s))
        (Nat.zero_lt_of_lt hfuel)
    have htick : tick s = procedureTick blockBytes s := by
      rw [tick_procedure hb (latchFrame_elsewhere (absurd · hready)), hsame,
        if_neg (sub_of_transmitLeast (Nat.zero_lt_of_lt hnext)).1]
    rw [procedureSteps, if_neg hsub]
    exact Reaches.head (htick ▸ step_busy hb (presented_eq_none_of_request hr) hl)
      (ih (by simpa [busy] using hb) (by simpa using hr) (by simpa using hl) hnext)

theorem exec_txblock (payload : Block) {s : State} (hb : busy s = true) (hl : s.stalled = false) :
    exec (.txblock payload) s = .next
      (procedureSteps blockBytes (1 + blockBytes + 2) (goto .txToken { s with txData := some payload })) := by
  rw [exec, execTxblock, afterExchanges_live _ hl, dropUnclaimed_busy _ hb]

/-- Settles O11: the received formats are bytes delivered, all of which the engine takes (`reaches_deliver`), the
exchanges of the CRC positions are steps (`reaches_discardCrc`), and so are those of a block sent
(`reaches_transmit`). -/
theorem stepsRunBlocks : Obligations.StepsRunBlocks := by
  refine fun s rest hb hr hl => ⟨fun b0 b1 b2 b3 hs hk hc => ?_, fun payload crc0 crc1 hs hlength hc => ?_,
    fun register ht hs hk hc => ?_, fun payload hs hp => ?_⟩
  · refine ⟨_, exec_r7 b0 b1 b2 b3 (by exact hb) hl, reaches_deliver rest _ hr hl hc ?_⟩
    rw [deliver_reply b0 b1 b2 b3 (by exact hb) (by exact hs) (by exact hk)]
    have hhistory := (returnFrom_frame .r7Bytes (replyRead b0 b1 b2 b3 { s with card := .oracle rest })).history
    simpa [replyRead, received, returnFrom] using congrArg List.length hhistory
  · refine ⟨_, exec_rxblock payload crc0 crc1 (by exact hb) hl, reaches_deliver rest _ hr hl hc ?_⟩
    rw [deliver_block payload crc0 crc1 (by exact hb) (by exact hs) (by exact hlength)]
    have hhistory := (returnFrom_frame .rxCrc
      (blockReceived payload crc0 crc1 { s with card := .oracle rest })).history
    simpa [blockReceived, received, returnFrom] using congrArg List.length hhistory
  · have htaken := deliver_register register (s := { s with card := .oracle rest }) ht hs hk
    refine ⟨_, exec_csd register (by exact hb) hl,
      (reaches_deliver rest _ hr hl hc ?_).trans (reaches_discardCrc ?_ ?_)⟩ <;> rw [htaken]
    · simp [received]
    · exact hr
    · exact hl
  · have hat : goto .txToken { s with txData := some payload } = s := by rw [← hp, ← hs]; rfl
    refine ⟨_, exec_txblock payload hb hl, ?_⟩
    rw [hat]
    exact reaches_transmit _ hb hr hl (by rw [transmitLeast, hs]; exact Nat.lt_succ_self _)

/-! ## The steps run the commands -/

section
variable {s : State}

/-- An operation that begins to receive reaches what it decides after `Receive`. -/
theorem reaches_startReceive (hb : busy s = true) (hr : s.request = none) (hl : s.stalled = false) :
    Reaches (startReceive s) (afterReceive (receive (rxLength s.phase.top) s)) :=
  reaches_procedure (startReceive s) hb nofun (latchFrame_elsewhere nofun) hr hl

/-- VoltageCheck that begins to read the reply reaches its check. -/
theorem reaches_startReply (ht : s.phase.top = .initVoltage) (hr : s.request = none) (hl : s.stalled = false) :
    Reaches (startRun .r7Bytes s) (afterReply (readReply s)) := by
  have h := reaches_procedure (startRun .r7Bytes s) (by simp [busy, ht]) nofun (latchFrame_elsewhere nofun) hr hl
  have htop : (readReply s).phase.top = .initVoltage := (finishProcedure_frame _ _).top.trans ht
  have hcaller : afterReplyBytes (readReply s) = afterReply (readReply s) := by rw [afterReplyBytes, htop]
  rw [← hcaller]
  simpa [ht, rxLength, returnFrom, readReply] using h

/-- WRITE that begins to transmit reaches what it decides after `Transmit`. -/
theorem reaches_startTransmit (ht : s.phase.top = .opWrite) (hr : s.request = none) (hl : s.stalled = false) :
    Reaches (goto .txToken s) (afterWriteBlock (transmit s)) := by
  have h := reaches_procedure (goto .txToken s) (by simp [busy, ht]) nofun (latchFrame_elsewhere nofun) hr hl
  have htop : (transmit s).phase.top = .opWrite := (finishProcedure_frame _ _).top.trans ht
  have hcaller : afterTransmit (transmit s) = afterWriteBlock (transmit s) := by rw [afterTransmit, htop]
  rw [← hcaller]
  simpa [ht, rxLength, returnFrom, transmit] using h

end

/-! ### The callers of a command, on its result (R115, R131 to R134, R177, R178) -/

theorem isIdle_iff (r : R1Result) : r.isIdle = true ↔ r = .answer 1#7 := by simp [R1Result.isIdle]

theorem isZero_iff (r : R1Result) : r.isZero = true ↔ r = .answer 0#7 := by simp [R1Result.isZero]

theorem isTimeout_iff (r : R1Result) : r.isTimeout = true ↔ r = .timeout := by simp [R1Result.isTimeout]

section
variable {s : State}

theorem afterCommand_initReset (ht : s.phase.top = .initReset) : afterCommand s =
    if s.r1 = .answer 1#7 then startCommand .initVoltage false { s with dev := { s.dev with present := true } }
    else doneInit .notPresent s := by
  simp only [afterCommand, ht, afterReset, isIdle_iff]

theorem afterCommand_initVoltage (ht : s.phase.top = .initVoltage) : afterCommand s =
    if s.r1 = .answer 1#7 then startRun .r7Bytes s else doneInit .unsupported s := by
  simp only [afterCommand, ht, afterInterfaceCondition, isIdle_iff]

theorem afterCommand_initReadReg (ht : s.phase.top = .initReadReg) : afterCommand s =
    if s.r1 = .answer 0#7 then startReceive s else doneInit .failed s := by
  simp only [afterCommand, ht, afterReadRegister, isZero_iff]

theorem afterCommand_opRead (ht : s.phase.top = .opRead) : afterCommand s =
    if s.r1 = .answer 0#7 then startReceive s else fail .io (dropPayload s) := by
  simp only [afterCommand, ht, afterReadCommand, isZero_iff]

theorem afterCommand_opWrite (ht : s.phase.top = .opWrite) : afterCommand s =
    if s.r1 = .answer 0#7 then goto .txToken s else fail .io (dropPayload s) := by
  simp only [afterCommand, ht, afterWriteCommand, isZero_iff]

end

theorem sendCommand_top (c : Command) (s : State) : (sendCommand c s).phase.top = s.phase.top :=
  (sendCommand_procedureFrame c s).top

theorem sendCommand_acmd (c : Command) (s : State) : (sendCommand c s).phase.acmd = s.phase.acmd :=
  (sendCommand_procedureFrame c s).acmd

theorem sendCommand_params (c : Command) (s : State) : (sendCommand c s).params = s.params :=
  (sendCommand_procedureFrame c s).params

theorem sendCommand_it (c : Command) (s : State) : (sendCommand c s).it = s.it :=
  (sendCommand_procedureFrame c s).it

theorem sendCommand_request (c : Command) (s : State) : (sendCommand c s).request = s.request :=
  (sendCommand_procedureFrame c s).request

theorem sendCommand_stalled (c : Command) (s : State) : (sendCommand c s).stalled = s.stalled :=
  (sendCommand_procedureFrame c s).stalled

theorem sendCommand_txData (c : Command) (s : State) : (sendCommand c s).txData = s.txData :=
  (sendCommand_procedureFrame c s).txData

/-- The reply bytes leave the R1 that let them be read. -/
theorem readReply_r1 (s : State) : (readReply s).r1 = s.r1 := finishProcedure_r1 _ _ rfl

theorem receive_r1 (length : Nat) (s : State) : (receive length s).r1 = s.r1 := finishProcedure_r1 _ _ rfl

theorem transmit_r1 (s : State) : (transmit s).r1 = s.r1 := finishProcedure_r1 _ _ rfl

theorem transmit_txData (s : State) : (transmit s).txData = s.txData := (finishProcedure_frame _ _).txData

/-- CMD9 and CMD17: the steps that go on with `Receive` after R1 == 0, and else with `onError`, reach what the row
leaves, decided on. -/
theorem reaches_readRow {c : Command} {s : State} (onError : State → State) (hb : busy s = true)
    (hr : s.request = none) (hl : s.stalled = false)
    (hcommand : Reaches s (if (sendCommand c s).r1 = .answer 0#7 then startReceive (sendCommand c s)
      else onError (sendCommand c s))) :
    Reaches s (if (readRow c (rxLength s.phase.top) s).r1 = .answer 0#7 then
      afterReceive (readRow c (rxLength s.phase.top) s) else onError (readRow c (rxLength s.phase.top) s)) := by
  by_cases h : (sendCommand c s).r1 = .answer 0#7
  · have hrow : readRow c (rxLength s.phase.top) s = receive (rxLength s.phase.top) (sendCommand c s) := by
      rw [readRow, dropUnclaimed_busy _ hb, if_pos ((isZero_iff _).mpr h)]
    rw [if_pos h] at hcommand
    rw [hrow, if_pos (by rw [receive_r1, h]), ← sendCommand_top c s]
    exact hcommand.trans (reaches_startReceive (by rw [busy, sendCommand_top]; exact hb)
      (by rw [sendCommand_request, hr]) (by rw [sendCommand_stalled, hl]))
  · rw [readRow_stops _ h, if_neg h]
    rwa [if_neg h] at hcommand

theorem readRow_top (c : Command) (length : Nat) (s : State) : (readRow c length s).phase.top = s.phase.top := by
  rw [readRow, dropUnclaimed_phase, apply_ite (fun t : State => t.phase.top), receive, (finishProcedure_frame _ _).top,
    startReceive_phase_top, ite_self, sendCommand_top]

/-- CMD8 of VoltageCheck: the reply is read after R1 == 1, and then checked. -/
theorem reaches_cmd8 {s : State} (ht : s.phase.top = .initVoltage) (hr : s.request = none) (hl : s.stalled = false)
    (hcommand : Reaches s (afterCommand (sendCommand ⟨8#6, cmd8Argument⟩ s))) :
    ∃ t, exec .cmd8 s = .next t ∧
      Reaches s (if t.r1 = .answer 1#7 then afterReply t else doneInit .unsupported t) := by
  refine ⟨_, exec_cmd8 hl, ?_⟩
  rw [afterCommand_initVoltage (by rw [sendCommand_top, ht])] at hcommand
  by_cases h : (sendCommand ⟨8#6, cmd8Argument⟩ s).r1 = .answer 1#7
  · rw [if_pos h] at hcommand
    rw [if_pos ((isIdle_iff _).mpr h), if_pos (by rw [readReply_r1, h])]
    exact hcommand.trans (reaches_startReply (by rw [sendCommand_top, ht]) (by rw [sendCommand_request, hr])
      (by rw [sendCommand_stalled, hl]))
  · rw [if_neg h] at hcommand
    rwa [if_neg (mt (isIdle_iff _).mp h), if_neg h]

/-- CMD24 of a WRITE: the payload is transmitted after R1 == 0. -/
theorem reaches_cmd24 {s : State} (ht : s.phase.top = .opWrite) (hr : s.request = none) (hl : s.stalled = false)
    (hp : s.txData.isSome = true)
    (hcommand : Reaches s (afterCommand (sendCommand ⟨24#6, sectorArgument s⟩ s))) :
    ∃ t, exec (.cmd24 (sectorArgument s)) s = .next t ∧
      Reaches s (if t.r1 = .answer 0#7 then afterWriteBlock t else fail .io (dropPayload t)) := by
  rw [afterCommand_opWrite (by rw [sendCommand_top, ht])] at hcommand
  by_cases h : (sendCommand ⟨24#6, sectorArgument s⟩ s).r1 = .answer 0#7
  · obtain ⟨payload, hpayload⟩ := Option.isSome_iff_exists.mp hp
    have hsupplied := supplyPayload_of_some ((sendCommand_txData ⟨24#6, sectorArgument s⟩ s).trans hpayload)
    have hkept := (transmit_txData (sendCommand ⟨24#6, sectorArgument s⟩ s)).trans (sendCommand_txData _ s)
    rw [if_pos h] at hcommand
    refine ⟨_, exec_cmd24 _ hl, ?_⟩
    rw [if_pos ((isZero_iff _).mpr h), hsupplied, ← hkept, if_pos (by exact (transmit_r1 _).trans h)]
    exact hcommand.trans (reaches_startTransmit (by rw [sendCommand_top, ht]) (by rw [sendCommand_request, hr])
      (by rw [sendCommand_stalled, hl]))
  · rw [if_neg h] at hcommand
    exact ⟨_, exec_cmd24_stops _ hl h, by rwa [if_neg h]⟩

/-- Settles O12: `sendCommand` is reached with its caller's decision (`reaches_command`), and a data phase that
follows with the decision after it. -/
theorem stepsRunCommands : Obligations.StepsRunCommands := by
  intro s hs hn hr hl
  have hreach (c : Command) (ht : s.phase.top ≠ .idle) (hc : commandOf s = some c) :
      Reaches s (afterCommand (sendCommand c s)) :=
    reaches_command c s ((busy_iff s).mpr ht) hs hn hc hr hl
  refine ⟨fun ht => ⟨_, afterExchanges_live _ hl, ?_⟩,
    fun ht => reaches_cmd8 ht hr hl (hreach _ (by simp [ht]) (by rw [commandOf, ht])),
    fun ht ha => ⟨_, afterExchanges_live _ hl, ?_⟩, fun ht ha => ⟨_, afterExchanges_live _ hl, ?_⟩,
    fun ht => ⟨_, exec_cmd9 hl, ?_⟩, fun ht => ⟨_, exec_cmd17 _ hl, ?_⟩,
    fun ht hp => reaches_cmd24 ht hr hl hp (hreach _ (by simp [ht]) (by rw [commandOf, ht]))⟩
  · have h := hreach ⟨0#6, 0#32⟩ (by simp [ht]) (by rw [commandOf, ht])
    rwa [afterCommand, sendCommand_top, ht] at h
  · have h := hreach ⟨55#6, 0#32⟩ (by simp [ht]) (by rw [commandOf, ht, ha]; rfl)
    rwa [afterCommand, sendCommand_top, ht, sendCommand_acmd, ha] at h
  · have h := hreach ⟨41#6, acmd41Argument⟩ (by simp [ht]) (by rw [commandOf, ht, ha]; rfl)
    rwa [afterCommand, sendCommand_top, ht, sendCommand_acmd, ha] at h
  · have h := hreach ⟨9#6, 0#32⟩ (by simp [ht]) (by rw [commandOf, ht])
    rw [afterCommand_initReadReg (by rw [sendCommand_top, ht])] at h
    have hrow := reaches_readRow (doneInit .failed) (by simp [busy, ht]) hr hl h
    rwa [afterReceive, readRow_top, ht] at hrow
  · have h := hreach ⟨17#6, sectorArgument s⟩ (by simp [ht]) (by rw [commandOf, ht])
    rw [afterCommand_opRead (by rw [sendCommand_top, ht])] at h
    have hrow := reaches_readRow (fun t => fail .io (dropPayload t)) (by simp [busy, ht]) hr hl h
    rwa [afterReceive, readRow_top, ht] at hrow

end Sys2Proof.Machine
end

section
/-! The family of 42_init.md, INIT as a whole: step by step it is its pseudocode (R130 to R136), and once it has ended
nothing starts it again (R137). -/

namespace Sys2Proof.Machine

/-! ## The callers of IdleWait on their result (R118, R133) -/

theorem afterCommand_prefix {s : State} (ht : s.phase.top = .initIdleWait) (ha : s.phase.acmd = false) :
    afterCommand s = if s.r1 = .timeout then doneInit .failed s else startCommand .initIdleWait true s := by
  simp [afterCommand, ht, ha, afterPrefix, isTimeout_iff]

theorem afterCommand_idleWait {s : State} (ht : s.phase.top = .initIdleWait) (ha : s.phase.acmd = true) :
    afterCommand s =
      if s.r1 = .timeout then doneInit .failed s
      else if s.r1 ≠ .answer 1#7 then startCommand .initReadReg false { s with it := s.it + 1 }
      else if s.params.initBudget ≤ s.it + 1 then doneInit .failed { s with it := s.it + 1 }
      else startCommand .initIdleWait false { s with it := s.it + 1 } := by
  simp [afterCommand, ht, ha, afterIdleWait, isTimeout_iff, ← isIdle_iff, idleWaitExhausted]

/-! ## Each step of INIT, run to its end -/

/-- Step 4, once `Receive(16)` has returned (R134 to R136). -/
theorem afterReceive_initReadReg {s : State} (ht : s.phase.top = .initReadReg) : afterReceive s =
    if s.framerResult ≠ .ok then doneInit .failed s
    else if csdStructure (latchCsd s).csd ≠ (latchCsd s).params.csdHcStruct then doneInit .unsupported (latchCsd s)
    else becomeReady (csdCount (latchCsd s).params (latchCsd s).csd) (latchCsd s) := by
  rw [afterReceive, ht]
  by_cases h : csdStructure (latchCsd s).csd = (latchCsd s).params.csdHcStruct <;>
    simp [afterRegisterBlock, decodeRegisterLatch, csdDecode, h]

theorem finish_registerBlock {s : State} (ht : s.phase.top = .initReadReg) : finish (startReceive s) =
    if (receive 16 s).framerResult ≠ .ok then doneInit .failed (receive 16 s)
    else if csdStructure (latchCsd (receive 16 s)).csd ≠ (latchCsd (receive 16 s)).params.csdHcStruct then
      doneInit .unsupported (latchCsd (receive 16 s))
    else becomeReady (csdCount (latchCsd (receive 16 s)).params (latchCsd (receive 16 s)).csd)
      (latchCsd (receive 16 s)) := by
  have htop : (receive 16 s).phase.top = .initReadReg := (finishProcedure_frame _ _).top.trans ht
  have hready (count : Sector) (t : State) : finish (becomeReady count t) = becomeReady count t :=
    finish_doneInit .ready _
  rw [finish_startReceive s (by simp [busy, ht]), ht, show rxLength .initReadReg = 16 from rfl,
    afterReceive_initReadReg htop]
  simp only [apply_ite finish, finish_doneInit, hready]

/-- Steps 4 and 5 (R134 to R136). -/
theorem finish_initReadReg (s : State) : finish (startCommand .initReadReg false s) = pseudoReadRegister s := by
  have htop : (sendCommand ⟨9#6, 0#32⟩ (startCommand .initReadReg false s)).phase.top = .initReadReg :=
    sendCommand_top _ _
  rw [finish_startCommand .initReadReg false s ⟨9#6, 0#32⟩ nofun rfl, afterCommand_initReadReg htop,
    apply_ite finish, finish_doneInit, finish_registerBlock htop, ← ite_not]
  rfl

/-! ### IdleWait (R133) -/

/-- IdleWait after its CMD55. -/
def prefixSent (s : State) : State := sendCommand ⟨55#6, 0#32⟩ (startCommand .initIdleWait false s)

/-- IdleWait after the ACMD41 of the same iteration. -/
def acmdSent (s : State) : State := sendCommand ⟨41#6, 0x40000000#32⟩ (startCommand .initIdleWait true (prefixSent s))

/-- IdleWait with that iteration counted. -/
def iterated (s : State) : State := { acmdSent s with it := (acmdSent s).it + 1 }

theorem iterated_params (s : State) : (iterated s).params = s.params := by
  simp only [iterated, acmdSent, prefixSent, sendCommand_params, startCommand_params]

theorem iterated_it (s : State) : (iterated s).it = s.it + 1 := by
  simp only [iterated, acmdSent, prefixSent, sendCommand_it, startCommand_it]

theorem pseudoIdleWait_succ (iterations : Nat) (s : State) : pseudoIdleWait (iterations + 1) s =
    if (prefixSent s).r1 = .timeout then doneInit .failed (prefixSent s)
    else if (acmdSent s).r1 = .timeout then doneInit .failed (acmdSent s)
    else if (acmdSent s).r1 ≠ .answer 1#7 then pseudoReadRegister (iterated s)
    else pseudoIdleWait iterations (iterated s) := rfl

/-- One iteration of the machine, and what it runs after it. -/
theorem finish_idleWait_iteration (s : State) : finish (startCommand .initIdleWait false s) =
    if (prefixSent s).r1 = .timeout then doneInit .failed (prefixSent s)
    else if (acmdSent s).r1 = .timeout then doneInit .failed (acmdSent s)
    else if (acmdSent s).r1 ≠ .answer 1#7 then pseudoReadRegister (iterated s)
    else if (iterated s).params.initBudget ≤ (iterated s).it then doneInit .failed (iterated s)
    else finish (startCommand .initIdleWait false (iterated s)) := by
  rw [finish_startCommand .initIdleWait false s ⟨55#6, 0#32⟩ nofun rfl,
    afterCommand_prefix (sendCommand_top _ _) (sendCommand_acmd _ _), apply_ite finish, finish_doneInit,
    finish_startCommand .initIdleWait true _ ⟨41#6, 0x40000000#32⟩ nofun rfl,
    afterCommand_idleWait (sendCommand_top _ _) (sendCommand_acmd _ _)]
  simp only [apply_ite finish, finish_doneInit, finish_initReadReg]
  rfl

/-- Step 3: the loop that has `iterations` left until INIT_BUDGET, at least one. -/
theorem finish_initIdleWait (iterations : Nat) : ∀ s : State, s.it + (iterations + 1) = s.params.initBudget →
    finish (startCommand .initIdleWait false s) = pseudoIdleWait (iterations + 1) s := by
  induction iterations with
  | zero =>
    intro s hit
    have hlast : (iterated s).params.initBudget ≤ (iterated s).it := by rw [iterated_params, iterated_it]; omega
    rw [finish_idleWait_iteration, pseudoIdleWait_succ, if_pos hlast, pseudoIdleWait]
  | succ iterations ih =>
    intro s hit
    have hmore : ¬ (iterated s).params.initBudget ≤ (iterated s).it := by rw [iterated_params, iterated_it]; omega
    rw [finish_idleWait_iteration, pseudoIdleWait_succ, if_neg hmore,
      ih (iterated s) (by rw [iterated_params, iterated_it]; omega)]

/-! ### VoltageCheck and Reset (R131, R132) -/

theorem replyAccepted_eq_true_iff (r7 : Vector Byte 4) :
    replyAccepted r7 = true ↔ r7[2] &&& 0x0F#8 = 0x01#8 ∧ r7[3] = 0xA5#8 := by
  simp [replyAccepted]

theorem replyAccepted_eq_false_iff (r7 : Vector Byte 4) :
    replyAccepted r7 = false ↔ r7[2] &&& 0x0F#8 ≠ 0x01#8 ∨ r7[3] ≠ 0xA5#8 := by
  simp [replyAccepted, imp_iff_not_or]

/-- Step 2, once the reply has been read, for a legal INIT_BUDGET (R132, R133). -/
theorem finish_afterReply {s : State} (hi : 1 ≤ s.params.initBudget) : finish (afterReply s) =
    if s.r7[2] &&& 0x0F#8 ≠ 0x01#8 ∨ s.r7[3] ≠ 0xA5#8 then doneInit .unsupported s
    else pseudoIdleWait s.params.initBudget { s with it := 0 } := by
  obtain ⟨iterations, hbudget⟩ : ∃ n, s.params.initBudget = n + 1 := ⟨_, (Nat.sub_add_cancel hi).symm⟩
  have hwait := finish_initIdleWait iterations { s with it := 0 } (by simpa using hbudget.symm)
  rw [← hbudget] at hwait
  simp only [← replyAccepted_eq_false_iff, afterReply]
  cases replyAccepted s.r7
  · exact finish_doneInit _ _
  · exact hwait

/-- VoltageCheck after its CMD8. -/
def interfaceSent (s : State) : State := sendCommand ⟨8#6, 0x000001A5#32⟩ (startCommand .initVoltage false s)

theorem reply_params (s : State) : (readReply (interfaceSent s)).params = s.params := by
  rw [readReply, (finishProcedure_frame _ _).params, startRun_params, interfaceSent, sendCommand_params,
    startCommand_params]

/-- Step 2 and what follows it (R132). -/
theorem finish_initVoltage {s : State} (hi : 1 ≤ s.params.initBudget) : finish (startCommand .initVoltage false s) =
    if (interfaceSent s).r1 ≠ .answer 1#7 then doneInit .unsupported (interfaceSent s)
    else if (readReply (interfaceSent s)).r7[2] &&& 0x0F#8 ≠ 0x01#8 ∨ (readReply (interfaceSent s)).r7[3] ≠ 0xA5#8 then
      doneInit .unsupported (readReply (interfaceSent s))
    else pseudoIdleWait (readReply (interfaceSent s)).params.initBudget { readReply (interfaceSent s) with it := 0 } := by
  rw [finish_startCommand .initVoltage false s ⟨8#6, 0x000001A5#32⟩ nofun rfl,
    afterCommand_initVoltage (sendCommand_top _ _), apply_ite finish, finish_doneInit,
    finish_startReply _ (sendCommand_top _ _), ← interfaceSent,
    finish_afterReply (by rw [reply_params]; exact hi), ← ite_not]

/-- Step 1 and what follows it (R131): INIT from its first exchange is its pseudocode. -/
theorem finish_initReset {s : State} (hi : 1 ≤ s.params.initBudget) :
    finish (startCommand .initReset false s) = pseudoInit s := by
  rw [finish_startCommand .initReset false s ⟨0#6, 0#32⟩ nofun rfl, afterCommand_initReset (sendCommand_top _ _),
    apply_ite finish, finish_doneInit, finish_initVoltage (by simpa [sendCommand_params] using hi), ← ite_not]
  rfl

/-- Settles O45: an engine just reset is at the first exchange of Reset, from where `finish_initReset` runs the
pseudocode; in the phases that are none of INIT the row does nothing. -/
theorem initIsItsPseudocode : Obligations.InitIsItsPseudocode := by
  refine ⟨fun p card hp => ?_, fun s ht => ?_⟩
  · have hexec : exec .init (State.fresh p card) = .next (finish (startCommand .initReset false (State.fresh p card))) :=
      rfl
    rw [hexec, finish_initReset hp.2.1]
  · have hinit : s.phase.top.inInit = false := by rcases ht with ht | ht | ht <;> rw [ht] <;> rfl
    rw [exec, execInit, if_neg (by simp [hinit])]

end Sys2Proof.Machine
end

section
/-! The invariant of the engine by operation and control point, and that an engine step keeps it. -/

namespace Sys2Proof.Machine

/-! ## The invariant, operation by operation -/

/-- The Device State once initialization has ended (R21, R23 to R27). -/
structure SettledDevice (dev : DeviceState) : Prop where
  initialized : dev.initialized = true ↔ dev.initResult = .ready
  present : dev.present = true ↔ dev.initResult ≠ .notPresent
  decided : dev.initResult ≠ .pending
  blockSize : dev.initialized = true → dev.blockSize = BitVec.ofNat 33 blockBytes
  blockCount : dev.initialized = true → dev.blockCount.toNat % 1024 = 0 ∧ dev.blockCount.toNat ≤ 2 ^ 32
  position : dev.initialized = true → dev.position ≤ dev.blockCount

/-- The Device State during INIT: nothing decided, present from the second step on (R21, R131). -/
structure UndecidedDevice (present : Bool) (dev : DeviceState) : Prop where
  initialized : dev.initialized = false
  pending : dev.initResult = .pending
  present : dev.present = present

/-- What holds of the Device State during an operation (R21, R27 c, R123). -/
structure DeviceInv (top : TopPhase) (dev : DeviceState) : Prop where
  undecided : top.inInit = true → UndecidedDevice (top != .initReset) dev
  settled : top.inInit = false → SettledDevice dev
  operation : top = .opRead ∨ top = .opWrite → dev.initialized = true ∧ dev.position < dev.blockCount

/-- The frame latch holds the frame of the command in progress (R33). -/
def FrameLatched (s : State) : Prop := ∀ c, commandOf s = some c → s.frame = c.frame

/-- What holds of the latches and the counters at a control point. -/
def PointInv (s : State) : Prop :=
  match s.phase.sub with
  | .none => s.rxData = []
  | .cmdReady => s.n < s.params.retryBudget ∧ (s.n ≠ 0 → FrameLatched s) ∧ s.rxData = []
  | .cmdFrame => s.k < 6 ∧ FrameLatched s ∧ s.rxData = []
  | .cmdR1 => s.n < s.params.retryBudget ∧ s.rxData = []
  | .r7Bytes => s.r1 = .answer 1#7 ∧ s.k < 4 ∧ s.rxData = []
  | .rxToken => s.r1 = .answer 0#7 ∧ s.n < s.params.retryBudget ∧ s.rxData = []
  | .rxPayload => s.r1 = .answer 0#7 ∧ s.k < rxLength s.phase.top ∧ s.rxData.length = s.k
  | .rxCrc => s.r1 = .answer 0#7 ∧ s.k < 2 ∧ s.rxData.length = rxLength s.phase.top
  | .txToken | .txResp => s.r1 = .answer 0#7 ∧ s.rxData = []
  | .txPayload => s.r1 = .answer 0#7 ∧ s.k < blockBytes ∧ s.rxData = []
  | .txCrc => s.r1 = .answer 0#7 ∧ s.k < 2 ∧ s.rxData = []
  | .txBusy => s.r1 = .answer 0#7 ∧ s.n < s.params.retryBudget ∧ s.rxData = []

/-- The clauses that belong to no control point. -/
structure OperationInv (s : State) : Prop where
  params : legalParams s.params
  device : DeviceInv s.phase.top s.dev
  idleWait : s.phase.top = .initIdleWait → s.it < s.params.initBudget
  outbound : s.txData.isSome = true ↔ s.phase.top = .opWrite
  store : s.card.wf = true

theorem Inv.deviceInv {s : State} (h : Inv s) : DeviceInv s.phase.top s.dev where
  undecided := by
    intro hi
    have hpending := h.pending.mpr hi
    refine ⟨Bool.eq_false_iff.mpr fun h' => ?_, hpending, ?_⟩
    · rw [h.initialized.mp h'] at hpending
      cases hpending
    · have habsent := h.absent
      have hpresent := h.presentInInit
      generalize s.phase.top = top at hi habsent hpresent ⊢
      cases top with
      | initReset => exact habsent rfl
      | initVoltage | initIdleWait | initReadReg => exact hpresent (by simp)
      | idle | opRead | opWrite => cases hi
  settled hi :=
    { initialized := h.initialized, present := h.outcome hi, blockSize := h.blockSize, blockCount := h.blockCount
      position := h.position
      decided := fun hp => by rw [h.pending.mp hp] at hi; cases hi }
  operation := h.operation

theorem Inv.operationInv {s : State} (h : Inv s) : OperationInv s :=
  ⟨h.params, h.deviceInv, h.idleWait, h.noOutbound, h.store⟩

theorem Inv.pointInv {s : State} (h : Inv s) : PointInv s := by
  have hpoll := h.pollCounter
  have hrun := h.runCounter
  have hlatched := h.frame
  have hreply := h.replyAnswered
  have hdata := h.dataAnswered
  have hnone := h.noReceived
  have hpayload := h.payload
  have hwhole := h.received
  have hlength : rxLength s.phase.top ≠ 0 := by cases s.phase.top <;> decide
  unfold PointInv
  cases hs : s.phase.sub <;>
    simp_all [SubPhase.polls, SubPhase.runLength, SubPhase.inData, FrameLatched, blockBytes]

/-- Only a settled device is initialized. -/
theorem DeviceInv.settled_of_initialized {top : TopPhase} {dev : DeviceState} (h : DeviceInv top dev)
    (hinit : dev.initialized = true) : SettledDevice dev := by
  cases hi : top.inInit with
  | false => exact h.settled hi
  | true => rw [(h.undecided hi).initialized] at hinit; cases hinit

theorem DeviceInv.initialized_iff {top : TopPhase} {dev : DeviceState} (h : DeviceInv top dev) :
    dev.initialized = true ↔ dev.initResult = .ready := by
  refine ⟨fun hinit => (h.settled_of_initialized hinit).initialized.mp hinit, fun hready => ?_⟩
  cases hi : top.inInit with
  | false => exact (h.settled hi).initialized.mpr hready
  | true => rw [(h.undecided hi).pending] at hready; cases hready

theorem DeviceInv.pending_iff {top : TopPhase} {dev : DeviceState} (h : DeviceInv top dev) :
    dev.initResult = .pending ↔ top.inInit = true := by
  refine ⟨fun hpending => ?_, fun hi => (h.undecided hi).pending⟩
  by_contra hi
  exact (h.settled (Bool.eq_false_iff.mpr hi)).decided hpending

/-- The clauses together are the invariant. -/
theorem inv_of_parts {s : State} (legal : s.phase.legal = true) (h : OperationInv s) (p : PointInv s) : Inv s := by
  obtain ⟨hparams, hdevice, hwait, houtbound, hstore⟩ := h
  have hsettled := hdevice.settled_of_initialized
  constructor
  case params => exact hparams
  case phase => exact legal
  case initialized => exact hdevice.initialized_iff
  case pending => exact hdevice.pending_iff
  case present => exact fun h => (hsettled h).present.mpr (by rw [(hsettled h).initialized.mp h]; nofun)
  case absent => exact fun ht => (hdevice.undecided (by rw [ht]; rfl)).present.trans (by rw [ht]; rfl)
  case presentInInit =>
    rintro (ht | ht | ht) <;> exact (hdevice.undecided (by rw [ht]; rfl)).present.trans (by rw [ht]; rfl)
  case outcome => exact fun hi => (hdevice.settled hi).present
  case blockSize => exact fun h => (hsettled h).blockSize h
  case blockCount => exact fun h => (hsettled h).blockCount h
  case position => exact fun h => (hsettled h).position h
  case operation => exact hdevice.operation
  case idleWait => exact hwait
  case noOutbound => exact houtbound
  case store => exact hstore
  all_goals
    unfold PointInv at p
    cases hs : s.phase.sub <;> simp_all [SubPhase.polls, SubPhase.runLength, SubPhase.inData, FrameLatched, blockBytes]

/-! ## An exchange keeps it -/

/-- An exchange that does not end its procedure leads from legal phase to legal phase. -/
theorem ReactsTo.legal {length : Nat} {i : Byte} {s t : State} (h : ReactsTo length i s t)
    (legal : s.phase.legal = true) (goes : t.phase.sub ≠ .none) : t.phase.legal = true := by
  cases h with
  | readyEnds sub _ | frameEnds sub _ | tokenArrives sub _ | payloadEnds sub _ | txTokenGoes sub | txPayloadEnds sub _
  | txCrcEnds sub _ | accepted sub _ =>
    revert legal
    simp only [Phase.legal, sub]
    cases s.phase.top <;> simp [SubPhase.inCommand]
  | r1Arrives | r1TimesOut | replyEnds | tokenMissing | rxCrcEnds | rejected | busyEnds | busyTooLong =>
    exact absurd rfl goes
  | _ => exact legal

/-- An exchange that does not end its procedure leads to what holds at the next control point. -/
theorem ReactsTo.pointInv {i : Byte} {s t : State} (h : ReactsTo (rxLength s.phase.top) i s t)
    (budget : 1 ≤ s.params.retryBudget) (latched : s.phase.sub = .cmdReady → FrameLatched s) (p : PointInv s)
    (goes : t.phase.sub ≠ .none) : PointInv t := by
  have hlength : 0 < rxLength s.phase.top := by cases s.phase.top <;> decide
  unfold PointInv at p ⊢
  cases h with
  | readyWaits sub _ hn => simp only [sub] at p ⊢; exact ⟨hn, fun _ => latched sub, p.2.2⟩
  | readyEnds sub _ => simp only [sub] at p ⊢; exact ⟨by decide, latched sub, p.2.2⟩
  | frameGoes sub hk => simp only [sub] at p ⊢; exact ⟨hk, p.2.1, p.2.2⟩
  | frameEnds sub _ => simp only [sub] at p ⊢; exact ⟨budget, p.2.2⟩
  | r1Waits sub _ hn => simp only [sub] at p ⊢; exact ⟨hn, p.2⟩
  | replyGoes sub hk => simp only [sub] at p ⊢; exact ⟨p.1, hk, p.2.2⟩
  | tokenWaits sub _ hn => simp only [sub] at p ⊢; exact ⟨p.1, hn, p.2.2⟩
  | tokenArrives sub _ => simp only [sub] at p ⊢; exact ⟨p.1, hlength, rfl⟩
  | payloadGoes sub hk => simp only [sub] at p ⊢; exact ⟨p.1, hk, by simp [p.2.2]⟩
  | payloadEnds sub hk =>
    simp only [sub] at p ⊢
    obtain ⟨hr1, hlt, hreceived⟩ := p
    exact ⟨hr1, by decide, by simp; omega⟩
  | rxCrcGoes sub hk => simp only [sub] at p ⊢; exact ⟨p.1, hk, p.2.2⟩
  | txTokenGoes sub => simp only [sub] at p ⊢; exact ⟨p.1, by decide, p.2⟩
  | txPayloadGoes sub hk => simp only [sub] at p ⊢; exact ⟨p.1, hk, p.2.2⟩
  | txPayloadEnds sub _ => simp only [sub] at p ⊢; exact ⟨p.1, by decide, p.2.2⟩
  | txCrcGoes sub hk => simp only [sub] at p ⊢; exact ⟨p.1, hk, p.2.2⟩
  | txCrcEnds sub _ => simp only [sub] at p ⊢; exact ⟨p.1, p.2.2⟩
  | accepted sub _ => simp only [sub] at p ⊢; exact ⟨p.1, budget, p.2⟩
  | busyWaits sub _ hn => simp only [sub] at p ⊢; exact ⟨p.1, hn, p.2.2⟩
  | r1Arrives | r1TimesOut | replyEnds | tokenMissing | rxCrcEnds | rejected | busyEnds | busyTooLong =>
    exact absurd rfl goes

/-! ## The callers keep it -/

theorem UndecidedDevice.failed {present : Bool} {dev : DeviceState} (h : UndecidedDevice present dev) {r : InitResult}
    (hr : r = .notPresent ∧ present = false ∨ (r = .unsupported ∨ r = .failed) ∧ present = true) :
    SettledDevice { dev with initResult := r } := by
  obtain ⟨hinit, -, hpresent⟩ := h
  rcases hr with ⟨rfl, hp⟩ | ⟨rfl | rfl, hp⟩ <;>
    exact ⟨by simp [hinit], by simp [hpresent, hp], nofun, by simp [hinit], by simp [hinit], by simp [hinit]⟩

/-- The capacity of any register is a multiple of 1024 sectors, 2^32 at most (R168). -/
theorem csdCount_range (p : Params) (csd : Csd) :
    (csdCount p csd).toNat % 1024 = 0 ∧ (csdCount p csd).toNat ≤ 2 ^ 32 := by
  have hcapacity := (csdCapacity csd).isLt
  have hbias := p.capBias.isLt
  have hlt : ((csdCapacity csd).toNat + p.capBias.val) * 1024 < 2 ^ 33 := by omega
  rw [csdCount, BitVec.toNat_ofNat, Nat.mod_eq_of_lt hlt]
  omega

/-- Ready: the geometry of R136. -/
theorem UndecidedDevice.ready {dev : DeviceState} (h : UndecidedDevice true dev) {p : Params} (hp : legalParams p)
    (csd : Csd) : SettledDevice
      { dev with
        initialized := true, blockSize := BitVec.ofNat 33 blockBytes, blockCount := csdCount p csd
        position := p.readyPosition, initResult := .ready } :=
  ⟨⟨fun _ => rfl, fun _ => rfl⟩, ⟨fun _ => nofun, fun _ => h.present⟩, nofun, fun _ => rfl,
    fun _ => csdCount_range p csd, fun _ => by rw [hp.2.2]; exact BitVec.le_def.mpr (Nat.zero_le _)⟩

/-- The cursor moves on a Ready device, inside the sector count (R181). -/
theorem SettledDevice.advance {dev : DeviceState} (h : SettledDevice dev) (hrange : dev.position < dev.blockCount) :
    SettledDevice { dev with position := dev.position + 1#33 } :=
  ⟨h.initialized, h.present, h.decided, h.blockSize, h.blockCount, fun _ => by bv_omega⟩

/-- The invariant of an engine whose operation has ended. -/
theorem inv_of_ended {t : State} (phase : t.phase = Phase.idle) (params : legalParams t.params)
    (device : SettledDevice t.dev) (rxData : t.rxData = []) (txData : t.txData = none) (store : t.card.wf = true) :
    Inv t := by
  refine inv_of_parts (by rw [phase]; rfl) ⟨params, ?_, ?_, ?_, store⟩ ?_
  · rw [phase]; exact ⟨nofun, fun _ => device, nofun⟩
  · rw [phase]; nofun
  · rw [phase, txData]; exact ⟨nofun, nofun⟩
  · rw [PointInv, phase]; exact rxData

/-- The invariant of an engine that begins a command. -/
theorem inv_startCommand {top : TopPhase} {acmd : Bool} {s : State} (ht : top ≠ .idle)
    (h : OperationInv (startCommand top acmd s)) (rxData : s.rxData = []) : Inv (startCommand top acmd s) :=
  have legal : (startCommand top acmd s).phase.legal = true := by
    cases top with
    | idle => exact absurd rfl ht
    | _ => rfl
  inv_of_parts legal h ⟨h.params.1, fun hn => absurd rfl hn, rxData⟩

/-- What holds when the procedure at the control point `sub` has ended in `v`. -/
structure ProcedureEnded (sub : SubPhase) (v : State) : Prop where
  legal : ({ v.phase with sub := sub } : Phase).legal = true
  operation : OperationInv v
  held : sub.inCommand = true ∨ sub = .r7Bytes → v.rxData = []

/-- The device during the steps of INIT after Reset. -/
theorem OperationInv.undecided {s : State} {top : TopPhase} (h : OperationInv s) (ht : s.phase.top = top)
    (hi : top.inInit = true) : UndecidedDevice (top != .initReset) s.dev := by
  subst ht; exact h.device.undecided hi

theorem UndecidedDevice.deviceInv {dev : DeviceState} {top : TopPhase} (h : UndecidedDevice true dev)
    (ht : top = .initVoltage ∨ top = .initIdleWait ∨ top = .initReadReg) : DeviceInv top dev := by
  rcases ht with rfl | rfl | rfl <;> exact ⟨fun _ => h, nofun, nofun⟩

/-- Outside a WRITE there is no outbound payload (R64). -/
theorem OperationInv.noPayload {s : State} (h : OperationInv s) (ht : s.phase.top ≠ .opWrite) :
    s.txData.isSome = false :=
  Bool.eq_false_iff.mpr (mt h.outbound.mp ht)

/-- A caller that goes on with another command of INIT keeps the invariant. -/
theorem OperationInv.startsCommand {v u : State} {top top' : TopPhase} {acmd : Bool} (h : OperationInv v)
    (ht : v.phase.top = top) (hi : top.inInit = true)
    (ht' : top' = .initVoltage ∨ top' = .initIdleWait ∨ top' = .initReadReg) (dev : UndecidedDevice true u.dev)
    (wait : top' = .initIdleWait → u.it < v.params.initBudget) (rxData : u.rxData = []) (params : u.params = v.params)
    (txData : u.txData = v.txData) (card : u.card = v.card) : Inv (startCommand top' acmd u) := by
  have hnone : v.txData.isSome = false := h.noPayload (by rw [ht]; rintro rfl; cases hi)
  refine inv_startCommand (by rintro rfl; simp at ht') ⟨params ▸ h.params, dev.deviceInv ht', ?_, ?_, card ▸ h.store⟩
    rxData
  · exact fun hw => by rw [startCommand_params, params]; exact wait hw
  · rw [startCommand_txData, txData, hnone]
    exact ⟨nofun, fun (hw : top' = .opWrite) => by simp [hw] at ht'⟩

/-- A caller that ends an operation keeps the invariant. -/
theorem OperationInv.ends {v t : State} (h : OperationInv v) (phase : t.phase = Phase.idle)
    (device : SettledDevice t.dev) (params : t.params = v.params) (card : t.card = v.card) (rxData : t.rxData = [])
    (txData : t.txData = none) : Inv t :=
  inv_of_ended phase (params ▸ h.params) device rxData txData (card ▸ h.store)

/-- A caller that goes on inside the operation keeps the invariant. -/
theorem OperationInv.goesOn {v t : State} (h : OperationInv v) (top : t.phase.top = v.phase.top)
    (legal : t.phase.legal = true) (point : PointInv t) (dev : t.dev = v.dev) (it : t.it = v.it)
    (params : t.params = v.params) (txData : t.txData = v.txData) (card : t.card = v.card) : Inv t := by
  refine inv_of_parts legal ⟨params ▸ h.params, ?_, ?_, ?_, card ▸ h.store⟩ point
  · rw [top, dev]; exact h.device
  · rw [top, it, params]; exact h.idleWait
  · rw [txData, top]; exact h.outbound

theorem latchCsd_cases (s : State) : ∃ csd, latchCsd s = { s with csd := csd } := by
  unfold latchCsd
  split
  · exact ⟨_, rfl⟩
  · exact ⟨s.csd, rfl⟩

/-- Whatever the caller does, the invariant is kept. -/
theorem ResumesTo.keepsInv {sub : SubPhase} {v t : State} (h : ResumesTo sub v t) (ended : ProcedureEnded sub v) :
    Inv t := by
  obtain ⟨legal, op, held⟩ := ended
  have settled (ht : v.phase.top = .opRead ∨ v.phase.top = .opWrite) : SettledDevice v.dev :=
    op.device.settled (by rcases ht with ht | ht <;> rw [ht] <;> rfl)
  obtain ⟨csd, hcsd⟩ := latchCsd_cases v
  cases h with
  | resetPassed top group _ =>
    exact op.startsCommand top rfl (by simp) ⟨(op.undecided top rfl).initialized, (op.undecided top rfl).pending, rfl⟩
      nofun (held (.inl group)) rfl rfl rfl
  | replyPassed top group _ =>
    exact op.startsCommand top rfl (by simp) (op.undecided top rfl) (fun _ => op.params.2.1) (held (.inr group)) rfl rfl
      rfl
  | prefixAnswered top _ group _ =>
    exact op.startsCommand top rfl (by simp) (op.undecided top rfl) (fun _ => op.idleWait top) (held (.inl group)) rfl
      rfl rfl
  | waitAgain top _ group _ bound =>
    exact op.startsCommand top rfl (by simp) (op.undecided top rfl) (fun _ => bound) (held (.inl group)) rfl rfl rfl
  | waitOver top _ group _ _ =>
    exact op.startsCommand top rfl (by simp) (op.undecided top rfl) nofun (held (.inl group)) rfl rfl rfl
  | voltageAnswered top group r1 =>
    exact op.goesOn rfl (by simp [Phase.legal, top]) ⟨r1, Nat.zero_lt_succ 3, held (.inl group)⟩ rfl rfl rfl rfl rfl
  | registerAnswered top group r1 | readAnswered top group r1 =>
    exact op.goesOn rfl (by simp [Phase.legal, top]) ⟨r1, op.params.1, held (.inl group)⟩ rfl rfl rfl rfl rfl
  | writeAnswered top group r1 =>
    exact op.goesOn rfl (by simp [Phase.legal, top]) ⟨r1, held (.inl group)⟩ rfl rfl rfl rfl rfl
  | resetFailed top | voltageRefused top | replyFailed top | prefixTimedOut top | waitTimedOut top | waitExhausted top
  | registerRefused top | registerMissing top =>
    exact op.ends rfl ((op.undecided top rfl).failed (by simp)) rfl rfl rfl rfl
  | registerForeign top => rw [hcsd]; exact op.ends rfl ((op.undecided top rfl).failed (by simp)) rfl rfl rfl rfl
  | registerReady top => rw [hcsd]; exact op.ends rfl ((op.undecided top rfl).ready op.params csd) rfl rfl rfl rfl
  | readRefused top | readMissing top => exact op.ends rfl (settled (.inl top)) rfl rfl rfl rfl
  | writeRefused top | writeFailed top => exact op.ends rfl (settled (.inr top)) rfl rfl rfl rfl
  | readDelivered top =>
    exact op.ends rfl ((settled (.inl top)).advance (op.device.operation (.inl top)).2) rfl rfl rfl rfl
  | writeStored top =>
    exact op.ends rfl ((settled (.inr top)).advance (op.device.operation (.inr top)).2) rfl rfl rfl rfl
  | abandoned illegal => rw [legal] at illegal; cases illegal

/-! ## An engine step keeps it -/

theorem OperationInv.react {s v : State} (h : OperationInv s) (kept : ReactFrame s v) : OperationInv v where
  params := kept.params ▸ h.params
  device := by rw [kept.top, kept.dev]; exact h.device
  idleWait := by rw [kept.top, kept.it, kept.params]; exact h.idleWait
  outbound := by rw [kept.txData, kept.top]; exact h.outbound
  store := kept.card ▸ h.store

/-- Nothing of an inbound block is held at the control points of a command and of the reply. -/
theorem PointInv.held {s : State} (h : PointInv s) (hs : s.phase.sub.inCommand = true ∨ s.phase.sub = .r7Bytes) :
    s.rxData = [] := by
  unfold PointInv at h
  cases hsub : s.phase.sub <;> simp_all [SubPhase.inCommand]

/-- A procedure that does not end at the inbound block leaves its payload latch. -/
theorem ReactsTo.rxData_ended {length : Nat} {i : Byte} {s v : State} (h : ReactsTo length i s v)
    (hs : s.phase.sub ≠ .none) (hv : v.phase.sub = .none) : v.rxData = s.rxData := by
  rcases h.ended hs hv with ⟨-, -, -, hrx, -⟩ | ⟨-, -, -, -, hrx, -⟩ | ⟨-, -, hrx, -⟩ <;> exact hrx

/-- The invariant with the pair of an exchange recorded, and in the ready poll with the frame in its latch. -/
theorem Inv.recorded {s : State} (h : Inv s) {f : Vector Byte 6} (history : List (Byte × Byte))
    (kept : s.phase.sub ≠ .cmdReady ∨ s.n ≠ 0 → f = s.frame)
    (latched : s.phase.sub = .cmdReady → s.n = 0 → ∀ c, commandOf s = some c → f = c.frame) :
    Inv { s with frame := f, history := history } ∧
      (s.phase.sub = .cmdReady → FrameLatched { s with frame := f, history := history }) := by
  have hpoint := h.pointInv
  have hlatched (hs : s.phase.sub = .cmdReady) : FrameLatched { s with frame := f, history := history } := by
    by_cases hn : s.n = 0
    · exact latched hs hn
    · simp only [PointInv, hs] at hpoint
      rw [kept (.inr hn)]
      exact hpoint.2.1 hn
  refine ⟨inv_of_parts (by exact h.phase) ⟨h.params, h.deviceInv, h.idleWait, h.noOutbound, h.store⟩ ?_, hlatched⟩
  by_cases hs : s.phase.sub = .cmdReady
  · simp only [PointInv, hs] at hpoint ⊢
    exact ⟨hpoint.1, fun _ => hlatched hs, hpoint.2.2⟩
  · rw [kept (.inl hs)]
    exact hpoint

/-- Whatever byte a busy engine receives, the invariant is kept. -/
theorem engineStep_keepsInv {s : State} (i : Byte) (hinv : Inv s) (hb : busy s = true) : Inv (engineStep i s) := by
  have hs := sub_ne_none hb hinv.phase
  obtain ⟨f, v, hkept, hlatched, hreact, hv⟩ := engineStep_cases i hb hs
  obtain ⟨hrecorded, hframe⟩ := hinv.recorded _ hkept hlatched
  have op : OperationInv v := hrecorded.operationInv.react hreact.frame_kept
  rcases hv with ⟨hgoes, he⟩ | ⟨hended, hresume⟩
  · rw [he]
    exact inv_of_parts (hreact.legal hrecorded.phase hgoes) op
      (hreact.pointInv hrecorded.params.1 hframe hrecorded.pointInv hgoes)
  · have hphase : Phase.mk v.phase.top s.phase.sub v.phase.acmd = s.phase := by
      rw [hreact.frame_kept.top, hreact.frame_kept.acmd]
    exact hresume.keepsInv ⟨(congrArg Phase.legal hphase).trans hinv.phase, op,
      fun hg => (hreact.rxData_ended hs hended).trans (hinv.pointInv.held hg)⟩

theorem Inv.cardMoves {s : State} (h : Inv s) : Inv (cardMoves s) :=
  inv_of_parts h.phase ⟨h.params, h.deviceInv, h.idleWait, h.noOutbound, Card.answer_wf _ _ h.store⟩ h.pointInv

/-- A step against the card keeps the invariant. -/
theorem tick_keepsInv {s : State} (h : Inv s) : Inv (tick s) := by
  cases hb : busy s with
  | false => rw [tick_idle hb]; exact h
  | true => rw [tick_busy hb]; exact engineStep_keepsInv _ h.cardMoves hb

theorem finish_keepsInv {s : State} (h : Inv s) : Inv (finish s) :=
  finish_induction (P := fun s t => Inv s → Inv t) (fun _ _ h => h) (fun _ _ _ ih h => ih (tick_keepsInv h)) s h

end Sys2Proof.Machine
end

section
/-! The family of 42_init.md, where INIT ends (R130) and the transition table of its steps (R138). -/

namespace Sys2Proof.Machine

/-! ## INIT ends (R130) -/

theorem finish_request (s : State) : (finish s).request = s.request :=
  finish_induction (P := fun s t => t.request = s.request) (fun _ _ => rfl)
    (fun s _ _ h => h.trans (tick_request s)) s

theorem finish_script (s : State) : (finish s).script = s.script :=
  finish_induction (P := fun s t => t.script = s.script) (fun _ _ => rfl)
    (fun s _ _ h => h.trans (tick_script s)) s

theorem busy_of_inInit {s : State} (h : s.phase.top.inInit = true) : busy s = true := by
  cases hb : busy s with
  | true => rfl
  | false => rw [inInit_of_not_busy hb] at h; cases h

/-- INIT is in progress, or the engine is IDLE with nothing of the phase left over. -/
def InInitOrIdle (s : State) : Prop := s.phase.top.inInit = true ∨ s.phase = Phase.idle

/-- The callers of INIT answer no request, and stay in INIT or end it. -/
theorem ResumesTo.inInit_kept {sub : SubPhase} {v t : State} (h : ResumesTo sub v t)
    (hv : v.phase.top.inInit = true) : t.responses = v.responses ∧ InInitOrIdle t := by
  obtain ⟨csd, hcsd⟩ := latchCsd_cases v
  cases h with
  | resetPassed | replyPassed | prefixAnswered | waitOver | waitAgain => exact ⟨rfl, .inl rfl⟩
  | voltageAnswered | registerAnswered => exact ⟨rfl, .inl hv⟩
  | registerForeign | registerReady => rw [hcsd]; exact ⟨rfl, .inr rfl⟩
  | resetFailed | voltageRefused | replyFailed | prefixTimedOut | waitTimedOut | waitExhausted | registerRefused
  | registerMissing | abandoned => exact ⟨rfl, .inr rfl⟩
  | readAnswered top | readRefused top | readDelivered top | readMissing top | writeAnswered top | writeRefused top
  | writeStored top | writeFailed top => rw [top] at hv; cases hv

theorem tick_inInit {s : State} (hinv : Inv s) (hi : s.phase.top.inInit = true) :
    (tick s).responses = s.responses ∧ InInitOrIdle (tick s) := by
  have hb := busy_of_inInit hi
  rw [tick_busy hb]
  obtain ⟨f, v, -, -, hreact, hv⟩ := engineStep_cases (s := cardMoves s) (cardByte s) hb (sub_ne_none hb hinv.phase)
  have hkept := hreact.frame_kept
  have hvi : v.phase.top.inInit = true := by rw [hkept.top]; exact hi
  rcases hv with ⟨-, he⟩ | ⟨-, hresume⟩
  · rw [he]; exact ⟨hkept.responses, .inl hvi⟩
  · obtain ⟨hresponses, hplace⟩ := hresume.inInit_kept hvi
    exact ⟨hresponses.trans hkept.responses, hplace⟩

/-- INIT run to its end answers no request and leaves the phase (IDLE, NONE). -/
theorem finish_inInit {s : State} (hinv : Inv s) (hi : s.phase.top.inInit = true) :
    (finish s).responses = s.responses ∧ (finish s).phase = Phase.idle := by
  refine finish_induction (P := fun s t => Inv s → InInitOrIdle s → t.responses = s.responses ∧ t.phase = Phase.idle)
    (fun s hidle _ hplace => ⟨rfl, hplace.resolve_left fun hi => ?_⟩) (fun s t hb ih hinv hplace => ?_) s hinv (.inl hi)
  · rw [busy_of_inInit hi] at hidle; cases hidle
  · have hi : s.phase.top.inInit = true := hplace.resolve_right fun hp => by rw [busy, hp] at hb; cases hb
    obtain ⟨hresponses, hnext⟩ := tick_inInit hinv hi
    obtain ⟨hr, hp⟩ := ih (tick_keepsInv hinv) hnext
    exact ⟨hr.trans hresponses, hp⟩

theorem exec_init {s : State} (hi : s.phase.top.inInit = true) (hl : s.stalled = false) :
    exec .init s = .next (finish s) := by
  rw [exec, execInit, if_pos hi, afterExchanges_live _ hl]

/-- Settles O46: the run to the end keeps the invariant (`finish_keepsInv`), whose clauses on an IDLE engine are the
outcome; what it leaves alone is `finish_inInit` and the frame of `finish`. -/
theorem initEndsInOneOutcome : Obligations.InitEndsInOneOutcome := by
  intro s hinv hi hl
  have hend := finish_keepsInv hinv
  obtain ⟨hresponses, hphase⟩ := finish_inInit hinv hi
  obtain ⟨hrx, htx⟩ := finish_drops (busy_of_inInit hi)
  obtain ⟨added, hhistory, -⟩ := finish_history s
  have hsettled : SettledDevice (finish s).dev := hend.deviceInv.settled (by rw [hphase]; rfl)
  have houtcome : (finish s).dev.initResult = .ready ∨ (finish s).dev.initResult = .notPresent ∨
      (finish s).dev.initResult = .unsupported ∨ (finish s).dev.initResult = .failed := by
    have hdecided := hsettled.decided
    cases hr : (finish s).dev.initResult <;> simp_all
  exact ⟨_, exec_init hi hl, hphase, houtcome, hsettled.initialized, hsettled.present, finish_params s, hrx, htx,
    finish_request s, finish_script s, hresponses, ⟨added, hhistory.symm⟩, hend⟩

/-! ## The transition table (R138) -/

/-- How the reply of CMD8 ends: the R1 that let it be read stays latched. -/
theorem ReactsTo.reply_ended {length : Nat} {i : Byte} {u v : State} (h : ReactsTo length i u v)
    (hu : u.phase.sub = .r7Bytes) (hv : v.phase.sub = .none) : v.r1 = u.r1 := by
  rcases h.ended (by simp [hu]) hv with ⟨hs, -⟩ | ⟨-, -, -, hr1, -⟩ | ⟨hr1, -⟩
  · rw [hu] at hs; cases hs
  · exact hr1
  · exact hr1

/-- How `Receive` ends: IO with its token poll exhausted, or Ok (R151, R153). -/
theorem ReactsTo.receive_ended {length : Nat} {i : Byte} {u v : State} (h : ReactsTo length i u v)
    (hu : u.phase.sub = .rxToken ∨ u.phase.sub = .rxPayload ∨ u.phase.sub = .rxCrc) (hv : v.phase.sub = .none) :
    v.r1 = u.r1 ∧ ((v.framerResult = .io ∧ u.phase.sub = .rxToken ∧ v.n = u.n + 1 ∧ u.params.retryBudget ≤ u.n + 1) ∨
      v.framerResult = .ok) := by
  have hs : u.phase.sub ≠ .none := by rcases hu with hu | hu | hu <;> simp [hu]
  rcases h.ended hs hv with ⟨hsub, -⟩ | ⟨hsub, -⟩ | ⟨hr1, -, -, hend⟩
  · simp [hsub] at hu
  · simp [hsub] at hu
  · refine ⟨hr1, ?_⟩
    rcases hend with ⟨hsub, -, hexhausted, hn, hio⟩ | ⟨-, -, hok⟩ | ⟨hsub, -⟩ | ⟨hsub, -⟩ | ⟨hsub, -⟩
    · exact .inl ⟨hio, hsub, hn, hexhausted⟩
    · exact .inr hok
    all_goals simp [hsub] at hu

/-- What the invariant lets be when a procedure of INIT has ended in `v`, a step after `s`. -/
structure InitProcedureEnded (s v : State) : Prop where
  top : v.phase.top = s.phase.top
  acmd : v.phase.acmd = s.phase.acmd
  it : v.it = s.it
  params : v.params = s.params
  pending : v.dev.initResult = .pending
  legal : ({ v.phase with sub := s.phase.sub } : Phase).legal = true
  reply : s.phase.sub = .r7Bytes → v.r1 = .answer 1#7
  receive : s.phase.sub = .rxToken ∨ s.phase.sub = .rxPayload ∨ s.phase.sub = .rxCrc →
    v.r1 = .answer 0#7 ∧ ((v.framerResult = .io ∧ s.phase.sub = .rxToken ∧ v.n = s.params.retryBudget) ∨
      v.framerResult = .ok)

/-- A step of INIT goes on inside its procedure, or a caller decides on what that procedure left. -/
theorem tick_inInit_cases {s : State} (h : Inv s) (hi : s.phase.top.inInit = true) :
    ((tick s).phase.top = s.phase.top ∧ (tick s).phase.acmd = s.phase.acmd ∧ (tick s).dev.initResult = .pending) ∨
      ∃ v, InitProcedureEnded s v ∧ ResumesTo s.phase.sub v (tick s) := by
  have hb := busy_of_inInit hi
  have hpending : s.dev.initResult = .pending := h.pending.mpr hi
  rw [tick_busy hb]
  obtain ⟨f, v, -, -, hreact, hv⟩ := engineStep_cases (s := cardMoves s) (cardByte s) hb (sub_ne_none hb h.phase)
  have hkept := hreact.frame_kept
  have hvpending : v.dev.initResult = .pending := by rw [hkept.dev]; exact hpending
  rcases hv with ⟨-, he⟩ | ⟨hended, hresume⟩
  · rw [he]
    exact .inl ⟨hkept.top, hkept.acmd, hvpending⟩
  · refine .inr ⟨v, ⟨hkept.top, hkept.acmd, hkept.it, hkept.params, hvpending, ?_, fun hs => ?_, fun hs => ?_⟩, hresume⟩
    · have hphase : Phase.mk v.phase.top s.phase.sub v.phase.acmd = s.phase := by rw [hkept.top, hkept.acmd]; rfl
      exact (congrArg Phase.legal hphase).trans h.phase
    · exact (hreact.reply_ended hs hended).trans (h.replyAnswered hs)
    · obtain ⟨hr1, hend⟩ := hreact.receive_ended hs hended
      refine ⟨hr1.trans (h.dataAnswered (by rcases hs with hs | hs | hs <;> rw [hs] <;> rfl)), ?_⟩
      refine hend.imp_left fun ⟨hio, hsub, hn, hexhausted⟩ => ⟨hio, hsub, ?_⟩
      have hbelow := h.pollCounter (by rw [show s.phase.sub = .rxToken from hsub]; rfl)
      exact hn.trans (Nat.le_antisymm hbelow hexhausted)

/-- Settles O47: a step of INIT goes on in its procedure, which is the first clause, or a caller decides
(`tick_inInit_cases`): each of its decisions is a row, or the first clause again. -/
theorem initTransitionTable : Obligations.InitTransitionTable := by
  intro s t hinv hi hstep
  have ht : t = tick s := by
    rcases step_cases hstep with ⟨-, -, -, ht⟩ | ⟨hidle, -⟩
    · exact ht
    · rw [busy_of_inInit hi] at hidle; cases hidle
  have hcases := tick_inInit_cases hinv hi
  rw [← ht] at hcases
  rcases hcases with ⟨htop, hacmd, hpending⟩ | ⟨v, ⟨htop, hacmd, hit, hparams, hpending, hlegal, hreply, hreceive⟩,
    hresume⟩
  · exact .inl ⟨htop, hpending, fun _ ha ha' => by rw [hacmd, ha] at ha'; cases ha'⟩
  have hwait : v.phase.top = .initIdleWait → v.it < v.params.initBudget := by
    rw [htop, hit, hparams]; exact hinv.idleWait
  have hposition : v.params.readyPosition = 0#33 := by rw [hparams]; exact hinv.params.2.2
  obtain ⟨csd, hcsd⟩ := latchCsd_cases v
  rw [← htop] at hi
  rw [← htop, ← hacmd, ← hit, ← hparams]
  rw [← hparams] at hreceive
  cases hresume with
  | resetPassed top _ r1 => exact .inr (.inl ⟨top, rfl, r1, rfl, hpending⟩)
  | resetFailed top _ r1 => exact .inr (.inr (.inl ⟨top, rfl, r1, rfl⟩))
  | voltageAnswered top => exact .inl ⟨rfl, hpending, fun hw => by rw [top] at hw; cases hw⟩
  | voltageRefused top _ r1 => exact .inr (.inr (.inr (.inr (.inl ⟨top, rfl, .inl r1, rfl⟩))))
  | replyPassed top group r7 =>
    obtain ⟨hecho, hvoltage⟩ := (replyAccepted_eq_true_iff _).mp r7
    exact .inr (.inr (.inr (.inl ⟨top, rfl, hreply group, hecho, hvoltage, rfl, hpending⟩)))
  | replyFailed top _ r7 =>
    exact .inr (.inr (.inr (.inr (.inl ⟨top, rfl, .inr ((replyAccepted_eq_false_iff _).mp r7), rfl⟩))))
  | prefixTimedOut top _ _ r1 | waitTimedOut top _ _ r1 =>
    exact .inr (.inr (.inr (.inr (.inr (.inl ⟨top, rfl, rfl, .inl r1⟩)))))
  | prefixAnswered top acmd => exact .inl ⟨top.symm, hpending, fun _ ha => by rw [acmd] at ha; cases ha⟩
  | waitExhausted top acmd _ r1 bound =>
    exact .inr (.inr (.inr (.inr (.inr (.inl
      ⟨top, rfl, rfl, .inr ⟨acmd, r1, Nat.le_antisymm (hwait top) bound⟩⟩)))))
  | waitAgain top _ _ r1 bound => exact .inl ⟨top.symm, hpending, fun _ _ _ => ⟨r1, rfl, bound⟩⟩
  | waitOver top acmd _ answered left =>
    have hbits : ∃ bits, v.r1 = .answer bits ∧ bits ≠ 1#7 := by
      cases hr1 : v.r1 with
      | answer bits => exact ⟨bits, rfl, fun h => left (by rw [hr1, h])⟩
      | timeout => exact absurd hr1 answered
    exact .inr (.inr (.inr (.inr (.inr (.inr (.inl ⟨top, acmd, rfl, hbits, hpending⟩))))))
  | registerAnswered top => exact .inl ⟨rfl, hpending, fun hw => by rw [top] at hw; cases hw⟩
  | registerRefused top _ r1 => exact .inr (.inr (.inr (.inr (.inr (.inr (.inr (.inl ⟨top, rfl, r1, rfl⟩)))))))
  | registerMissing top group result =>
    obtain ⟨hr1, hend⟩ := hreceive group
    obtain ⟨hio, hsub, hn⟩ := hend.resolve_right result
    exact .inr (.inr (.inr (.inr (.inr (.inr (.inr (.inr ⟨top, rfl, hr1, .inl ⟨hio, hsub, hn, rfl⟩⟩)))))))
  | registerForeign top group result version =>
    rw [hcsd] at version ⊢
    exact .inr (.inr (.inr (.inr (.inr (.inr (.inr (.inr
      ⟨top, rfl, (hreceive group).1, .inr (.inl ⟨result, version, rfl⟩)⟩)))))))
  | registerReady top group result version =>
    rw [hcsd] at version ⊢
    exact .inr (.inr (.inr (.inr (.inr (.inr (.inr (.inr
      ⟨top, rfl, (hreceive group).1, .inr (.inr ⟨result, version, rfl, rfl, rfl, rfl, hposition⟩)⟩)))))))
  | readAnswered top | readRefused top | readDelivered top | readMissing top | writeAnswered top | writeRefused top
  | writeStored top | writeFailed top => rw [top] at hi; cases hi
  | abandoned illegal => rw [hlegal] at illegal; cases illegal

end Sys2Proof.Machine
end

section
/-! The family of 43_data_framer.md: the data-response byte (R155), an outbound block against any card (R154), and the
CRC positions of an inbound block (R153). -/

namespace Sys2Proof.Machine

/-! ## An outbound block against any card (R154) -/

/-- At the control point `sub`, while this payload goes out, the engine sends these bytes, drops what it receives and
then does `onComplete`. -/
structure SendsRun (sub : SubPhase) (txData : Option Block) (bytes : List Byte) (onComplete : State → State) :
    Prop where
  live : sub ≠ .none
  sends : ∀ t : State, t.phase.sub = sub → t.txData = txData → outByte t = bytes.getD t.k Config.fill
  reacts : ∀ (i : Byte) (t : State), t.phase.sub = sub →
    react blockBytes i t = runStep bytes.length onComplete t

theorem sendsRun_payload (payload : Block) :
    SendsRun .txPayload (some payload) payload.val (startRun .txCrc) where
  live := nofun
  sends t hs hp := by simp only [outByte, hs, hp, payloadBytes]
  reacts i t hs := by simp only [react, hs, reactTxPayload, payload.property]

theorem sendsRun_fillers (txData : Option Block) :
    SendsRun .txCrc txData [Config.crcFiller, Config.crcFiller] (goto .txResp) where
  live := nofun
  sends t hs _ := by
    rw [outByte, hs]
    match t.k with
    | 0 | 1 | _ + 2 => rfl
  reacts i t hs := by simp only [react, hs, reactTxCrc]; rfl

theorem procedureSteps_succ (length fuel : Nat) {s : State} (hs : s.phase.sub ≠ .none) :
    procedureSteps length (fuel + 1) s = procedureSteps length fuel (procedureTick length s) := by
  rw [procedureSteps, if_neg hs]

/-- One exchange of such a run, against whatever card. -/
theorem SendsRun.tick {sub : SubPhase} {bytes : List Byte} {onComplete : State → State} {s : State}
    (h : SendsRun sub s.txData bytes onComplete) (hs : s.phase.sub = sub) :
    procedureTick blockBytes s = runStep bytes.length onComplete
      (record (bytes.getD s.k Config.fill) (cardByte s) (cardMoves s)) := by
  rw [← h.sends s hs rfl]
  exact h.reacts (cardByte s) _ hs

/-- The rest of such a run: one exchange for each byte, against whatever card. -/
theorem SendsRun.steps {sub : SubPhase} {txData : Option Block} {bytes : List Byte} {onComplete : State → State}
    (h : SendsRun sub txData bytes onComplete) (fuel : Nat) (rest : List Byte) : ∀ {s : State}, s.phase.sub = sub →
    s.txData = txData → rest ≠ [] → bytes.drop s.k = rest →
    ∃ heard k card draws, heard.length = rest.length ∧ procedureSteps blockBytes (rest.length + fuel) s =
      procedureSteps blockBytes fuel (onComplete
        { s with k := k, card := card, draws := draws, history := s.history ++ rest.zip heard }) := by
  induction rest with
  | nil => exact fun _ _ hne => absurd rfl hne
  | cons b rest ih =>
    intro s hs hp _ hdrop
    subst hp
    have hlength : bytes.length - s.k = rest.length + 1 := by rw [← List.length_drop, hdrop, List.length_cons]
    have hnext : bytes.drop (s.k + 1) = rest := by rw [← List.tail_drop, hdrop, List.tail_cons]
    have hbyte : bytes.getD s.k Config.fill = b := by
      rw [List.getD_eq_getElem?_getD, ← List.head?_drop, hdrop, List.head?_cons, Option.getD_some]
    rw [List.length_cons, Nat.add_right_comm, procedureSteps_succ _ _ (hs ▸ h.live), h.tick hs, hbyte]
    rcases runStep_cases bytes.length onComplete (record b (cardByte s) (cardMoves s)) with
      ⟨hlast, hstep⟩ | ⟨hmore, hstep⟩ <;> rw [hstep]
    · have hempty : rest = [] := hnext.symm.trans (List.drop_eq_nil_of_le hlast)
      subst hempty
      exact ⟨[cardByte s], s.k, (cardMoves s).card, (cardMoves s).draws, rfl,
        by rw [List.length_nil, Nat.zero_add]; rfl⟩
    · have hne : rest ≠ [] := List.ne_nil_of_length_pos (by simp at hmore; omega)
      obtain ⟨heard, k, card, draws, hheard, hrun⟩ :=
        ih (s := { record b (cardByte s) (cardMoves s) with k := s.k + 1 }) hs rfl hne hnext
      refine ⟨cardByte s :: heard, k, card, draws, congrArg (· + 1) hheard, hrun.trans ?_⟩
      simp [record, cardMoves]

/-- The start token of an outbound block goes out, whatever the card answers. -/
theorem procedureTick_token (length : Nat) {s : State} (hs : s.phase.sub = .txToken) :
    procedureTick length s = startRun .txPayload (record Config.startToken (cardByte s) (cardMoves s)) := by
  have ho : outByte s = Config.startToken := by rw [outByte, hs]
  rw [← ho]
  exact react_start_sent length (cardByte s) hs

/-- The 514 exchanges after the start token: the payload and the two fillers. -/
theorem procedureSteps_payload (payload : Block) {s : State} (hp : s.txData = some payload)
    (hs : s.phase.sub = .txPayload) (hk : s.k = 0) : ∃ heard k card draws, heard.length = blockBytes + 2 ∧
      procedureSteps blockBytes (blockBytes + 2) s =
        { s with
          phase := { s.phase with sub := .txResp }, k := k, card := card, draws := draws
          history := s.history ++ (payload.val ++ [Config.crcFiller, Config.crcFiller]).zip heard } := by
  have hne : payload.val ≠ [] := List.ne_nil_of_length_pos (by rw [payload.property]; decide)
  obtain ⟨data, k, card, draws, hdata, hpayload⟩ :=
    (sendsRun_payload payload).steps 2 payload.val hs hp hne (by rw [hk]; rfl)
  obtain ⟨fillers, k', card', draws', hfillers, hcrc⟩ :=
    (sendsRun_fillers s.txData).steps 0 [Config.crcFiller, Config.crcFiller]
      (s := startRun .txCrc
        { s with k := k, card := card, draws := draws, history := s.history ++ payload.val.zip data }) rfl rfl nofun rfl
  rw [payload.property] at hpayload
  refine ⟨data ++ fillers, k', card', draws', ?_, (hpayload.trans hcrc).trans ?_⟩
  · rw [List.length_append, hdata, hfillers, payload.property]; rfl
  · rw [List.zip_append hdata.symm, ← List.append_assoc]; rfl

/-- The 515 exchanges of an outbound block, up to the data-response byte. -/
theorem procedureSteps_outbound (payload : Block) {s : State} (hp : s.txData = some payload)
    (hs : s.phase.sub = .txToken) : ∃ heard k card draws, heard.length = 515 ∧
      procedureSteps blockBytes (1 + blockBytes + 2) s =
        { s with
          phase := { s.phase with sub := .txResp }, k := k, card := card, draws := draws
          history := s.history ++ (outboundBytes payload).zip heard } := by
  obtain ⟨heard, k, card, draws, hheard, hrest⟩ := procedureSteps_payload payload
    (s := startRun .txPayload (record Config.startToken (cardByte s) (cardMoves s))) hp rfl rfl
  refine ⟨cardByte s :: heard, k, card, draws, congrArg (· + 1) hheard, ?_⟩
  rw [Nat.add_assoc, Nat.add_comm 1, procedureSteps_succ _ _ (by rw [hs]; nofun), procedureTick_token blockBytes hs,
    hrest, outboundBytes, List.zip_cons_cons]
  simp [startRun, goto, record, cardMoves]

/-- Settles O28: the row makes the exchanges of `procedureSteps_outbound`; an IDLE engine then drops the payload. -/
theorem outboundBlockIsSent : Obligations.OutboundBlockIsSent := by
  intro payload s hl
  obtain ⟨heard, k, card, draws, hheard, hsent⟩ :=
    procedureSteps_outbound payload (s := goto .txToken { s with txData := some payload }) rfl rfl
  refine ⟨heard, card, draws, k, hheard, ?_⟩
  rw [exec, execTxblock, afterExchanges_live _ hl, hsent]
  cases hb : busy s with
  | true => rw [dropUnclaimed_busy _ hb]; rfl
  | false => rw [dropUnclaimed_idle _ hb]; rfl

/-! ## The data-response byte (R155) -/

/-- The data-response test, on numbers: the low five bits are 0b00101 (R77). -/
theorem isAccepting_iff : ∀ d : Byte, isAccepting d = true ↔ d.toNat % 32 = 5 := by decide

theorem react_response (length : Nat) (d : Byte) {s : State} (hs : s.phase.sub = .txResp) :
    react length d s = if isAccepting d then startPoll .txBusy s else endFramer .io s := by
  rw [react, hs]; rfl

/-- The data-response byte is the reaction to it, recorded with the filler that is sent. -/
theorem react_response_recorded (d : Byte) {s : State} (hs : s.phase.sub = .txResp) :
    react (rxLength s.phase.top) d (record (outByte s) d (latchFrame s)) =
      if isAccepting d then startPoll .txBusy (record 0xFF#8 d s) else endFramer .io (record 0xFF#8 d s) := by
  have ho : outByte s = 0xFF#8 := by rw [outByte, hs]; rfl
  rw [latchFrame_elsewhere (by simp [hs]), ho]
  exact react_response _ d (s := record 0xFF#8 d s) hs

/-- An accepting byte starts the busy poll. -/
theorem engineStep_response_accepted {d : Byte} {s : State} (hb : busy s = true) (hs : s.phase.sub = .txResp)
    (ha : isAccepting d = true) : engineStep d s = startPoll .txBusy (record 0xFF#8 d s) :=
  engineStep_within hb ((react_response_recorded d hs).trans (if_pos ha)) nofun

/-- Any other byte makes `Transmit` return IO, which ends the WRITE (R178). -/
theorem engineStep_response_rejected {d : Byte} {s : State} (ht : s.phase.top = .opWrite)
    (hs : s.phase.sub = .txResp) (hr : isAccepting d ≠ true) :
    engineStep d s = fail .io (dropPayload (endFramer .io (record 0xFF#8 d s))) := by
  rw [engineStep_returns (by simp [busy, ht]) ((react_response_recorded d hs).trans (if_neg hr)) rfl, hs]
  simp [returnFrom, afterTransmit, ht, afterWriteBlock, endFramer]

/-- Settles O25: the bytes of DRESP_ACCEPT accept (`engineStep_response_accepted`), and the test fails for every other
byte (`engineStep_response_rejected`). -/
theorem dataResponseDecides : Obligations.DataResponseDecides := by
  intro s ht hs hl
  have hb : busy s = true := by simp [busy, ht]
  refine ⟨fun ignored => ?_, fun d hd => ?_⟩
  · have haccept : exec (.drespAccept ignored) s = .next (engineStep (acceptByte ignored) s) :=
      receiveBytes_single _ hb hl
    rw [haccept, engineStep_response_accepted hb hs (isAccepting_acceptByte ignored)]
    rfl
  · rw [engineStep_response_rejected ht hs (mt (isAccepting_iff d).mp hd)]
    rfl

/-! ## The CRC positions of an inbound block (R153) -/

/-- A received block with other CRC bytes is the same, but for the record. -/
theorem blockReceived_crc (payload : List Byte) (c0 c1 d0 d1 : Byte) (s : State) :
    blockReceived payload d0 d1 s =
      { blockReceived payload c0 c1 s with history := s.history ++ received (inboundBytes payload d0 d1) } := rfl

/-- Settles O32: both blocks are received (`deliver_block`), alike but for the record (`blockReceived_crc`), which the
caller of `Receive` does not read (`afterReceive_ignoresRun`). -/
theorem crcBytesInfluenceNothing : Obligations.CrcBytesInfluenceNothing := by
  intro s payload c0 c1 d0 d1 hb hl hs hlength
  refine ⟨afterReceive (blockReceived payload c0 c1 s), _, ?_, ?_, rfl⟩
  · rw [exec_rxblock payload c0 c1 hb hl, deliver_block payload c0 c1 hb hs hlength]
  · rw [exec_rxblock payload d0 d1 hb hl, deliver_block payload d0 d1 hb hs hlength,
      blockReceived_crc payload c0 c1 d0 d1, (afterReceive_ignoresRun _).withHistory]
    rfl

end Sys2Proof.Machine
end

section
/-! The family of 44_csd_decoder.md: the capacity field (R167) and the sector count (R168). -/

namespace Sys2Proof.Machine

/-- An appended byte is the low digit of a number in base 256. -/
theorem toNat_append_byte {w : Nat} (high : BitVec w) (low : Byte) :
    (high ++ low).toNat = high.toNat * 256 + low.toNat := by
  rw [BitVec.toNat_append, ← Nat.shiftLeft_add_eq_or_of_lt low.isLt, Nat.shiftLeft_eq]

/-- The capacity field, by its three bytes (R167). -/
theorem csdCapacity_toNat (csd : Csd) :
    (csdCapacity csd).toNat = csd[7].toNat % 64 * 65536 + csd[8].toNat * 256 + csd[9].toNat := by
  rw [csdCapacity, toNat_append_byte, toNat_append_byte, BitVec.extractLsb'_toNat, Nat.shiftRight_zero]
  omega

/-- The sector count does not wrap: 33 bits hold the largest one (R168, R169 b). -/
theorem csdCount_toNat (p : Params) (csd : Csd) :
    (csdCount p csd).toNat = ((csdCapacity csd).toNat + p.capBias.val) * 1024 := by
  have hcapacity := (csdCapacity csd).isLt
  have hbias := p.capBias.isLt
  rw [csdCount, BitVec.toNat_ofNat, Nat.mod_eq_of_lt (by omega)]

/-- Settles O30: the count is exact (`csdCount_toNat`) over the field's three bytes (`csdCapacity_toNat`), and the ranges
are those of a 22-bit field. -/
theorem capacityIsExact : Obligations.CapacityIsExact := by
  refine ⟨rfl, fun p register => ?_⟩
  obtain ⟨hmultiple, hmost⟩ := csdCount_range p register
  have hexact := csdCount_toNat p register
  have hcapacity := (csdCapacity register).isLt
  refine ⟨by rw [hexact, csdCapacity_toNat], hmultiple, fun hbias => ?_, fun hbias => ⟨?_, hmost⟩⟩
  · rw [hbias, Fin.val_zero] at hexact
    omega
  · rw [hbias, Fin.val_one] at hexact
    omega

end Sys2Proof.Machine
end

section
/-! The family of 45_block_store.md, requests: what a step and `exec` do with a host operation (R182), the checks made
before any bus activity (R175, R176, R207) and the operations that need no bus (R176, R179, R180). -/

namespace Sys2Proof.Machine

/-! ## A host operation, accepted and run to its end (R182) -/

theorem exec_host {i : Instr} (s : State) (h : i.context = .host) :
    exec i s = whenIdle s (complete s (startRequest i s)) := by
  cases i with
  | seek | read | write | blocksize | blockcount => rfl
  | _ => cases h

/-- What an IDLE engine whose exchanges complete makes of a host operation. -/
theorem exec_host_finish {i : Instr} {s : State} (h : i.context = .host) (hb : busy s = false)
    (hl : s.stalled = false) : exec i s = .next (finish (startRequest i s)) := by
  rw [exec_host s h]
  cases ht : busy (startRequest i s) with
  | false => rw [whenIdle_complete_over hb ht, finish_idle ht]
  | true => rw [whenIdle_complete_runs hb ht hl]

theorem exec_host_busy {i : Instr} {s : State} (h : i.context = .host) (hb : busy s = true) :
    exec i s = .refused .requestWhileBusy := by
  rw [exec_host s h, whenIdle, if_pos hb]

/-- A host operation that gives a next state was accepted by an IDLE engine, and that state is its end. -/
theorem exec_host_next {i : Instr} {s t : State} (h : i.context = .host) (ht : exec i s = .next t) :
    busy s = false ∧ t = finish (startRequest i s) := by
  cases hb : busy s with
  | true => rw [exec_host_busy h hb] at ht; cases ht
  | false =>
    refine ⟨rfl, ?_⟩
    cases hstart : busy (startRequest i s) with
    | false =>
      rw [exec_host s h, whenIdle_complete_over hb hstart] at ht
      cases ht
      rw [finish_idle hstart]
    | true =>
      cases hl : s.stalled with
      | false => rw [exec_host_finish h hb hl] at ht; cases ht; rfl
      | true =>
        have hstuck : exec i s = .fault .exchangeNeverCompletes := by
          simp [exec_host s h, whenIdle, hb, complete, hstart, afterExchanges, hl]
        rw [hstuck] at ht; cases ht

/-! ## The step that accepts a host operation (R7, R182; log 10) -/

theorem StartsTo.stalled {i : Instr} {s t : State} (h : StartsTo s i t) : t.stalled = s.stalled := by
  cases h <;> rfl

theorem StartsTo.request {i : Instr} {s t : State} (h : StartsTo s i t) : t.request = s.request := by
  cases h <;> rfl

theorem acceptStep_over {i : Instr} {s : State} (h : busy (startRequest i s) = false) :
    acceptStep i s = .next (startRequest i s) := by
  simp [acceptStep, h]

theorem acceptStep_runs {i : Instr} {s : State} (hi : i.context = .host) (h : busy (startRequest i s) = true)
    (hl : s.stalled = false) : acceptStep i s = .next (tick (startRequest i s)) := by
  have hlive : (startRequest i s).stalled = false := (startRequest_startsTo s hi).stalled.trans hl
  simp [acceptStep, h, busyStep, afterExchanges_live _ hlive]

theorem accept_decoded {r : HostRequest} {i : Instr} (s : State) (h : decodeRequest r = .ok i) :
    accept r s = acceptStep i s := by
  simp [accept, h]

/-- A word that decodes is not the one that asks for nothing (R86). -/
theorem op_ne_zero_of_decoded {r : HostRequest} {i : Instr} (h : decodeRequest r = .ok i) : r.op ≠ 0#3 := by
  intro h0
  rw [decodeRequest, if_pos h0] at h
  cases h

theorem presented_of_op {s : State} {r : HostRequest} (hr : s.request = some r) (h : r.op ≠ 0#3) :
    presented s = some r := by
  simp [presented, hr, h]

theorem step_request {s : State} {r : HostRequest} {i : Instr} (hb : busy s = false) (hr : s.request = some r)
    (h : decodeRequest r = .ok i) : step s = acceptStep i { s with request := none } := by
  simp [step, presented_of_op hr (op_ne_zero_of_decoded h), hb, accept_decoded _ h]

theorem step_script {s : State} {r : HostRequest} {i : Instr} {rest : List HostRequest} (hb : busy s = false)
    (hr : s.request = none) (hs : s.script = r :: rest) (h : decodeRequest r = .ok i) :
    step s = acceptStep i { s with script := rest } := by
  simp [step, presented_eq_none_of_request hr, hb, idleStep, hs, accept_decoded _ h]

/-- Settles O8: the step is `acceptStep`, which is over or makes the first exchange. -/
theorem stepRunsDecodedRequest : Obligations.StepRunsDecodedRequest := by
  intro s r i hidle hr hdecode
  have hb : busy s = false := (not_busy_iff s).mpr hidle
  have hhost : i.context = .host := decodeRequest_host hdecode
  rw [step_request hb hr hdecode]
  refine ⟨fun hover => ?_, fun hbusy hl => acceptStep_runs hhost hbusy hl⟩
  rw [acceptStep_over hover, exec_host _ hhost, whenIdle_complete_over (by exact hb) hover]

/-- A step from `s` that accepts a host operation in the state `u` leads to the end of that operation. -/
theorem reaches_exec {i : Instr} {s u : State} (hi : i.context = .host) (hstep : step s = acceptStep i u)
    (hb : busy u = false) (hr : u.request = none) (hl : u.stalled = false) :
    ∃ t, exec i u = .next t ∧ Reaches s t := by
  refine ⟨_, exec_host_finish hi hb hl, ?_⟩
  cases hbusy : busy (startRequest i u) with
  | false =>
    rw [acceptStep_over hbusy] at hstep
    rw [finish_idle hbusy]
    exact .head hstep (.refl _)
  | true =>
    have hstart := startRequest_startsTo u hi
    rw [acceptStep_runs hi hbusy hl] at hstep
    rw [finish_tick hbusy]
    exact .head hstep (reaches_finish (by rw [tick_request, hstart.request, hr])
      (by rw [tick_stalled, hstart.stalled, hl]))

/-- Settles O9: the request on the lines and the next one of the script are both accepted by `acceptStep`, from where
the steps run the operation to its end (`reaches_exec`). -/
theorem requestReachesItsMeaning : Obligations.RequestReachesItsMeaning := by
  intro s r i hidle hl hdecode
  have hb : busy s = false := (not_busy_iff s).mpr hidle
  have hhost : i.context = .host := decodeRequest_host hdecode
  exact ⟨fun hr => reaches_exec hhost (step_request hb hr hdecode) hb rfl hl,
    fun rest hr hs => reaches_exec hhost (step_script hb hr hs hdecode) hb hr hl⟩

/-! ## The checks before any bus activity (R175, R176, R202, R204, R207) -/

theorem exec_seek (sector : BitVec 32) (s : State) :
    exec (.seek sector) s = whenIdle s (complete s (startSeek sector s)) := rfl

theorem seek_beyond_iff (sector : BitVec 32) (count : Sector) :
    count ≤ seekSector sector ↔ count.toNat ≤ sector.toNat := by
  rw [BitVec.le_def, seekSector_toNat]

section
variable {s : State}

theorem startSeek_unready (sector : BitVec 32) (hi : s.dev.initialized = false) : startSeek sector s = fail .io s := by
  simp [startSeek, hi]

theorem startSeek_beyond {sector : BitVec 32} (hi : s.dev.initialized = true)
    (hr : s.dev.blockCount ≤ seekSector sector) : startSeek sector s = fail .outOfBounds s := by
  simp [startSeek, hi, outOfRange, hr]

theorem startSeek_within {sector : BitVec 32} (hi : s.dev.initialized = true)
    (hr : seekSector sector < s.dev.blockCount) :
    startSeek sector s = respond (.status .ok) (setPosition (seekSector sector) s) := by
  simp [startSeek, hi, outOfRange, hr]

theorem startRead_unready (hi : s.dev.initialized = false) : startRead s = fail .io s := by
  simp [startRead, hi]

theorem startWrite_unready (payload : Block) (hi : s.dev.initialized = false) : startWrite payload s = fail .io s := by
  simp [startWrite, hi]

theorem startWrite_disabled (payload : Block) (hi : s.dev.initialized = true) (hw : s.params.writeEnable = false) :
    startWrite payload s = fail .notWritable s := by
  simp [startWrite, hi, hw]

end

/-- Settles O36: each failed check is a `fail` at acceptance, which adds its response and nothing else
(`whenIdle_complete_fail`). -/
theorem preconditionsInOrder : Obligations.PreconditionsInOrder := by
  intro payload sector s hidle
  refine ⟨fun hi => ⟨?_, ?_, ?_⟩, fun hi hw => ?_, fun hi hr => ⟨?_, fun hw => ?_⟩, fun hi hr => ?_⟩
  · rw [exec_seek, startSeek_unready sector hi, whenIdle_complete_fail _ hidle]
  · rw [exec_read, startRead_unready hi, whenIdle_complete_fail _ hidle]
  · rw [exec_write, startWrite_unready payload hi, whenIdle_complete_fail _ hidle]
  · rw [exec_write, startWrite_disabled payload hi hw, whenIdle_complete_fail _ hidle]
  · rw [exec_read, startRead_atEnd hi (BitVec.le_def.mpr hr), whenIdle_complete_fail _ hidle]
  · rw [exec_write, startWrite_atEnd payload hi hw (BitVec.le_def.mpr hr), whenIdle_complete_fail _ hidle]
  · rw [exec_seek, startSeek_beyond hi ((seek_beyond_iff sector _).mpr hr), whenIdle_complete_fail _ hidle]

/-! ## The operations without an exchange (R176, R179, R180) -/

/-- A request that is answered when an IDLE engine accepts it has its response, and nothing else happens. -/
theorem whenIdle_complete_respond (r : Response) {s u : State} (hs : s.phase = Phase.idle) (hu : u.phase = Phase.idle) :
    whenIdle s (complete s (respond r u)) = .next { u with responses := u.responses ++ [r] } := by
  rw [whenIdle_complete_over ((not_busy_iff s).mpr (by rw [hs]; rfl)) rfl, respond, ← hu]

/-- SEEK of a sector in range, on an IDLE engine (R176). -/
theorem exec_seek_within {s : State} {sector : BitVec 32} (hidle : s.phase = Phase.idle)
    (hi : s.dev.initialized = true) (hr : seekSector sector < s.dev.blockCount) :
    exec (.seek sector) s =
      .next { setPosition (seekSector sector) s with responses := s.responses ++ [.status .ok] } := by
  rw [exec_seek, startSeek_within hi hr, whenIdle_complete_respond _ hidle (by exact hidle)]
  rfl

/-- Settles O34: the two failures are in `preconditionsInOrder`; a SEEK in range moves the cursor and answers, and the
same SEEK again sets the cursor to where it is. -/
theorem seekMovesTheCursor : Obligations.SeekMovesTheCursor := by
  intro sector s hidle
  obtain ⟨hunready, -, -, hbeyond⟩ := preconditionsInOrder Block.zero sector s hidle
  refine ⟨fun hi => (hunready hi).1, hbeyond, fun hi hr => ?_⟩
  have hwithin : seekSector sector < s.dev.blockCount := by rw [BitVec.lt_def, seekSector_toNat]; exact hr
  exact ⟨_, exec_seek_within hidle hi hwithin, seekSector_toNat sector, rfl, exec_seek_within hidle hi hwithin⟩

theorem exec_blocksize (s : State) : exec .blocksize s = whenIdle s (complete s (startBlockSize s)) := rfl

theorem exec_blockcount (s : State) : exec .blockcount s = whenIdle s (complete s (startBlockCount s)) := rfl

/-- Settles O35: either accessor answers at its acceptance, with the geometry of the invariant or a free number. -/
theorem accessorsArePureReads : Obligations.AccessorsArePureReads := by
  intro s hinv hidle
  refine ⟨fun hi => ⟨?_, ?_⟩, fun hi =>
    ⟨⟨Config.freeBlockSize s.draws, s.draws + 1, ?_⟩, ⟨Config.freeBlockCount s.draws, s.draws + 1, ?_⟩⟩⟩
  · rw [exec_blocksize, startBlockSize, if_pos hi, hinv.blockSize hi, whenIdle_complete_respond _ hidle hidle]
  · rw [exec_blockcount, startBlockCount, if_pos hi, whenIdle_complete_respond _ hidle hidle]
  · rw [exec_blocksize, startBlockSize, if_neg (by simp [hi])]
    exact whenIdle_complete_respond _ (u := countDraw s) hidle hidle
  · rw [exec_blockcount, startBlockCount, if_neg (by simp [hi])]
    exact whenIdle_complete_respond _ (u := countDraw s) hidle hidle

end Sys2Proof.Machine
end

section
/-! The family of 45_block_store.md, READ and WRITE (R177, R178): each is its pseudocode, every host operation ends in
one response, and against given answers the block is moved or the operation fails with IO. -/

namespace Sys2Proof.Machine

/-! ## Each end of READ and WRITE -/

theorem receive_procedureFrame (length : Nat) (s : State) : ProcedureFrame (startReceive s) (receive length s) :=
  finishProcedure_frame _ _

theorem transmit_procedureFrame (s : State) : ProcedureFrame (goto .txToken s) (transmit s) :=
  finishProcedure_frame _ _

/-- READ or WRITE whose command was not answered R1 == 0 (R177, R178). -/
theorem finish_commandRefused {s : State} (ht : s.phase.top = .opRead ∨ s.phase.top = .opWrite)
    (hr1 : s.r1 ≠ .answer 0#7) : finish (afterCommand s) = fail .io (dropPayload s) := by
  rcases ht with ht | ht
  · rw [afterCommand_opRead ht, if_neg hr1, finish_fail]
  · rw [afterCommand_opWrite ht, if_neg hr1, finish_fail]

/-- READ whose start token never came (R151, R177). -/
theorem finish_readMissing {s : State} (ht : s.phase.top = .opRead) (hf : s.framerResult ≠ .ok) :
    finish (afterReceive s) = fail .io (dropPayload s) := by
  simp [afterReceive, ht, afterReadBlock, hf, finish_fail]

/-- WRITE whose block was not accepted, or not released in time (R155, R156, R178). -/
theorem finish_writeFailed {s : State} (ht : s.phase.top = .opWrite) (hf : s.framerResult ≠ .ok) :
    finish (afterTransmit s) = fail .io (dropPayload s) := by
  simp [afterTransmit, ht, afterWriteBlock, hf, finish_fail]

/-! ## READ and WRITE as their pseudocode (R177, R178) -/

/-- READ after its CMD17. -/
def readSent (s : State) : State := sendCommand ⟨17#6, sectorArgument s⟩ (startCommand .opRead false s)

/-- WRITE after its CMD24. -/
def writeSent (payload : Block) (s : State) : State :=
  sendCommand ⟨24#6, sectorArgument s⟩ (startCommand .opWrite false { s with txData := some payload })

theorem readSent_top (s : State) : (readSent s).phase.top = .opRead := sendCommand_top _ _

theorem writeSent_top (payload : Block) (s : State) : (writeSent payload s).phase.top = .opWrite := sendCommand_top _ _

/-- READ from its first exchange (R177). -/
theorem finish_opRead (s : State) : finish (startCommand .opRead false s) =
    if (readSent s).r1 ≠ .answer 0#7 then fail .io (dropPayload (readSent s))
    else if (receive blockBytes (readSent s)).framerResult ≠ .ok then
      fail .io (dropPayload (receive blockBytes (readSent s)))
    else respond (.data (receive blockBytes (readSent s)).rxData)
      (dropPayload (advancePosition (receive blockBytes (readSent s)))) := by
  have htop := readSent_top s
  have hblock := (receive_procedureFrame blockBytes (readSent s)).top.trans htop
  rw [finish_startCommand .opRead false s ⟨17#6, sectorArgument s⟩ nofun rfl, ← readSent]
  split_ifs with hr1 hf
  · exact finish_commandRefused (.inl htop) hr1
  · rw [finish_readAnswered htop (not_not.mp hr1), finish_readMissing hblock hf]
  · rw [finish_readAnswered htop (not_not.mp hr1), finish_readDelivered hblock (not_not.mp hf)]

/-- WRITE from its first exchange (R178). -/
theorem finish_opWrite (payload : Block) (s : State) :
    finish (startCommand .opWrite false { s with txData := some payload }) =
    if (writeSent payload s).r1 ≠ .answer 0#7 then fail .io (dropPayload (writeSent payload s))
    else if (transmit (writeSent payload s)).framerResult ≠ .ok then
      fail .io (dropPayload (transmit (writeSent payload s)))
    else respond (.status .ok) (dropPayload (advancePosition (transmit (writeSent payload s)))) := by
  have htop := writeSent_top payload s
  have hblock := (transmit_procedureFrame (writeSent payload s)).top.trans htop
  rw [finish_startCommand .opWrite false { s with txData := some payload } ⟨24#6, sectorArgument s⟩ nofun rfl,
    ← writeSent]
  split_ifs with hr1 hf
  · exact finish_commandRefused (.inr htop) hr1
  · rw [finish_writeAnswered htop (not_not.mp hr1), finish_writeFailed hblock hf]
  · rw [finish_writeAnswered htop (not_not.mp hr1), finish_writeStored hblock (not_not.mp hf)]

theorem finish_startRead (s : State) : finish (startRead s) = pseudoRead s := by
  simp only [startRead, apply_ite finish, finish_fail, finish_opRead, Bool.not_eq_true', outOfRange_iff]
  rfl

theorem finish_startWrite (payload : Block) (s : State) : finish (startWrite payload s) = pseudoWrite payload s := by
  simp only [startWrite, apply_ite finish, finish_fail, finish_opWrite, Bool.not_eq_true', outOfRange_iff]
  rfl

/-- Settles O44: both operations run to the end of what their acceptance starts (`exec_host_finish`), and that is their
pseudocode. -/
theorem readAndWriteAreTheirPseudocode : Obligations.ReadAndWriteAreTheirPseudocode := by
  intro s payload hidle hl
  have hb : busy s = false := by rw [not_busy_iff, hidle]; rfl
  exact ⟨(exec_host_finish rfl hb hl).trans (congrArg _ (finish_startRead s)),
    (exec_host_finish rfl hb hl).trans (congrArg _ (finish_startWrite payload s))⟩

/-! ## Every host operation ends in one response (R182, R208) -/

/-- How a host operation accepted in `s` ends: with an error on the Device State of `s`, or with another response. -/
inductive OperationEnds (s : State) : State → Prop where
  | failed (u : State) (e : ErrorKind) (kind : e ≠ .unsupported) (dev : u.dev = s.dev)
      (responses : u.responses = s.responses) : OperationEnds s (fail e u)
  | answered (u : State) (r : Response) (noError : ∀ e, r = .status e → e = .ok)
      (responses : u.responses = s.responses) : OperationEnds s (respond r u)

theorem OperationEnds.failedWithIo {s u : State} (dev : u.dev = s.dev) (responses : u.responses = s.responses) :
    OperationEnds s (fail .io (dropPayload u)) :=
  .failed (dropPayload u) .io nofun dev responses

theorem OperationEnds.moved {s u : State} {r : Response} (noError : ∀ e, r = .status e → e = .ok)
    (responses : u.responses = s.responses) : OperationEnds s (respond r (dropPayload (advancePosition u))) :=
  .answered (dropPayload (advancePosition u)) r noError responses

theorem status_ok_no_error : ∀ e, Response.status .ok = .status e → e = .ok := fun _ h => (Response.status.inj h).symm

theorem sendCommand_kept (c : Command) (s : State) :
    (sendCommand c s).dev = s.dev ∧ (sendCommand c s).responses = s.responses :=
  ⟨(sendCommand_procedureFrame c s).dev, (sendCommand_procedureFrame c s).responses⟩

theorem receive_kept (length : Nat) (s : State) :
    (receive length s).dev = s.dev ∧ (receive length s).responses = s.responses :=
  ⟨(receive_procedureFrame length s).dev, (receive_procedureFrame length s).responses⟩

theorem transmit_kept (s : State) : (transmit s).dev = s.dev ∧ (transmit s).responses = s.responses :=
  ⟨(transmit_procedureFrame s).dev, (transmit_procedureFrame s).responses⟩

theorem finish_opRead_ends (s : State) : OperationEnds s (finish (startCommand .opRead false s)) := by
  obtain ⟨hdev, hresponses⟩ : (readSent s).dev = s.dev ∧ (readSent s).responses = s.responses := sendCommand_kept _ _
  obtain ⟨hblockDev, hblockResponses⟩ := receive_kept blockBytes (readSent s)
  rw [finish_opRead]
  split_ifs
  · exact .failedWithIo hdev hresponses
  · exact .failedWithIo (hblockDev.trans hdev) (hblockResponses.trans hresponses)
  · exact .moved nofun (hblockResponses.trans hresponses)

theorem finish_opWrite_ends (payload : Block) (s : State) :
    OperationEnds s (finish (startCommand .opWrite false { s with txData := some payload })) := by
  obtain ⟨hdev, hresponses⟩ : (writeSent payload s).dev = s.dev ∧ (writeSent payload s).responses = s.responses :=
    sendCommand_kept _ _
  obtain ⟨hblockDev, hblockResponses⟩ := transmit_kept (writeSent payload s)
  rw [finish_opWrite]
  split_ifs
  · exact .failedWithIo hdev hresponses
  · exact .failedWithIo (hblockDev.trans hdev) (hblockResponses.trans hresponses)
  · exact .moved status_ok_no_error (hblockResponses.trans hresponses)

/-- Whatever its acceptance starts, a host operation run to its end has ended in one of the two ways. -/
theorem StartsTo.finish_ends {i : Instr} {s t : State} (h : StartsTo s i t) : OperationEnds s (finish t) := by
  cases h with
  | readBegins => exact finish_opRead_ends s
  | writeBegins payload => exact finish_opWrite_ends payload s
  | seekUnready | readUnready | writeUnready | seekBeyond | readAtEnd | writeAtEnd | writeDisabled =>
    rw [finish_fail]; exact .failed s _ nofun rfl rfl
  | seekMoves => rw [finish_respond]; exact .answered _ _ status_ok_no_error rfl
  | blockSizeKnown | blockSizeFree | blockCountKnown | blockCountFree =>
    rw [finish_respond]; exact .answered _ _ nofun rfl

theorem OperationEnds.one_response {s t : State} (h : OperationEnds s t) :
    t.phase = Phase.idle ∧ ∃ r, t.responses = s.responses ++ [r] := by
  cases h with
  | failed u e _ _ responses => exact ⟨rfl, .status e, by rw [fail, respond_responses, responses]⟩
  | answered u r _ responses => exact ⟨rfl, r, by rw [respond_responses, responses]⟩

/-- R208: with an Error other than Ok the Device State is the one before the operation. -/
theorem OperationEnds.dev_of_failed {s t : State} {e : ErrorKind} (h : OperationEnds s t)
    (hr : t.responses = s.responses ++ [.status e]) (he : e ≠ .ok) : t.dev = s.dev ∧ e ≠ .unsupported := by
  cases h with
  | failed u e' kind dev responses =>
    rw [fail, respond_responses, responses, List.append_cancel_left_eq] at hr
    cases hr
    exact ⟨dev, kind⟩
  | answered u r noError responses =>
    rw [respond_responses, responses, List.append_cancel_left_eq] at hr
    cases hr
    exact absurd (noError e rfl) he

/-- Settles O41: a busy engine refuses on both paths; an IDLE one runs the operation to its end, which has one response
(`OperationEnds.one_response`) and at most the exchanges of R238 (`finish_history`). -/
theorem oneResponseForEachRequest : Obligations.OneResponseForEachRequest := by
  intro i s hi
  refine ⟨exec_host_busy hi, fun r hb hr => ?_, fun hb hl => ?_⟩
  · rw [step, presented_of_op rfl hr]
    exact if_pos hb
  · have hstart := startRequest_startsTo s hi
    obtain ⟨hphase, r, hresponses⟩ := hstart.finish_ends.one_response
    obtain ⟨pairs, hhistory, hbound⟩ := finish_history (startRequest i s)
    exact ⟨_, r, pairs, exec_host_finish hi hb hl, hresponses, by rw [hphase]; rfl,
      by rw [hhistory, hstart.history], hbound⟩

/-- Settles O42: a host operation that gives a next state has run to its end (`exec_host_next`), and of the ways to end
only `OperationEnds.failed` has an Error other than Ok. -/
theorem failedOperationKeepsDeviceState : Obligations.FailedOperationKeepsDeviceState := by
  intro i s t e hi hexec hresponses he
  obtain ⟨-, rfl⟩ := exec_host_next hi hexec
  have hends := (startRequest_startsTo s hi).finish_ends
  obtain ⟨hdev, hkind⟩ := hends.dev_of_failed hresponses he
  exact ⟨hdev, hends.one_response.1, hkind⟩

/-! ## READ against given answers (R177, R201) -/

section
variable {s : State} {ready frameIn r1In rest : List Byte}

/-- READ whose CMD17 is answered R1 == 0 is at its `Receive(512)`. -/
theorem exec_read_answered (h : ReadyIdle s) (hr : s.dev.position < s.dev.blockCount)
    (heard : CommandHeard s.params ready frameIn r1In (.answer 0#7))
    (hc : s.card = .oracle (ready ++ frameIn ++ r1In ++ rest)) :
    ∃ n k, exec .read s = .next (finish (afterReceive (receive blockBytes
      (commandEnds (commandFrame 17#6 (sectorArgument s)) (.answer 0#7)
        (commandPairs (commandFrame 17#6 (sectorArgument s)) ready frameIn r1In) rest n k
        (startCommand .opRead false s))))) := by
  obtain ⟨n, k, hends⟩ := sendCommand_ends ⟨17#6, sectorArgument s⟩ (s := startCommand .opRead false s) heard hc
  refine ⟨n, k, ?_⟩
  rw [exec_read_accepted h hr, hends, finish_readAnswered rfl rfl]
  rfl

/-- READ whose CMD17 is not answered R1 == 0 has failed. -/
theorem exec_read_refused {r : R1Result} (h : ReadyIdle s) (hr : s.dev.position < s.dev.blockCount)
    (heard : CommandHeard s.params ready frameIn r1In r) (hne : r ≠ .answer 0#7)
    (hc : s.card = .oracle (ready ++ frameIn ++ r1In ++ rest)) :
    ∃ n k, exec .read s = .next (fail .io (dropPayload
      (commandEnds (commandFrame 17#6 (sectorArgument s)) r
        (commandPairs (commandFrame 17#6 (sectorArgument s)) ready frameIn r1In) rest n k
        (startCommand .opRead false s)))) := by
  obtain ⟨n, k, hends⟩ := sendCommand_ends ⟨17#6, sectorArgument s⟩ (s := startCommand .opRead false s) heard hc
  refine ⟨n, k, ?_⟩
  rw [exec_read_accepted h hr, hends, finish_commandRefused (.inl rfl) hne]
  rfl

/-! ## WRITE against given answers (R178, R201) -/

/-- WRITE whose CMD24 is answered R1 == 0 is at its `Transmit`. -/
theorem exec_write_answered (payload : Block) (h : ReadyIdle s) (he : s.params.writeEnable = true)
    (hr : s.dev.position < s.dev.blockCount) (heard : CommandHeard s.params ready frameIn r1In (.answer 0#7))
    (hc : s.card = .oracle (ready ++ frameIn ++ r1In ++ rest)) :
    ∃ n k, exec (.write payload) s = .next (finish (afterTransmit (transmit
      (commandEnds (commandFrame 24#6 (sectorArgument s)) (.answer 0#7)
        (commandPairs (commandFrame 24#6 (sectorArgument s)) ready frameIn r1In) rest n k
        (startCommand .opWrite false { s with txData := some payload }))))) := by
  obtain ⟨n, k, hends⟩ := sendCommand_ends ⟨24#6, sectorArgument s⟩
    (s := startCommand .opWrite false { s with txData := some payload }) heard hc
  refine ⟨n, k, ?_⟩
  rw [exec_write_accepted payload h he hr, hends, finish_writeAnswered rfl rfl]
  rfl

/-- WRITE whose CMD24 is not answered R1 == 0 has failed, with no byte of the block sent. -/
theorem exec_write_refused (payload : Block) {r : R1Result} (h : ReadyIdle s) (he : s.params.writeEnable = true)
    (hr : s.dev.position < s.dev.blockCount) (heard : CommandHeard s.params ready frameIn r1In r)
    (hne : r ≠ .answer 0#7) (hc : s.card = .oracle (ready ++ frameIn ++ r1In ++ rest)) :
    ∃ n k, exec (.write payload) s = .next (fail .io (dropPayload
      (commandEnds (commandFrame 24#6 (sectorArgument s)) r
        (commandPairs (commandFrame 24#6 (sectorArgument s)) ready frameIn r1In) rest n k
        (startCommand .opWrite false { s with txData := some payload })))) := by
  obtain ⟨n, k, hends⟩ := sendCommand_ends ⟨24#6, sectorArgument s⟩
    (s := startCommand .opWrite false { s with txData := some payload }) heard hc
  refine ⟨n, k, ?_⟩
  rw [exec_write_accepted payload h he hr, hends, finish_commandRefused (.inr rfl) hne]
  rfl

end

/-- The results of an R1 poll with which READ and WRITE do not go on (R115). -/
theorem R1PollGives.of_refused {budget : Nat} {bytes : List Byte} {r : R1Result}
    (h : (∃ bits, R1Answer budget bits bytes ∧ bits ≠ 0#7 ∧ r = .answer bits) ∨
      (PollMiss budget isR1 bytes ∧ r = .timeout)) : R1PollGives budget bytes r ∧ r ≠ .answer 0#7 := by
  rcases h with ⟨bits, h, hne, rfl⟩ | ⟨h, rfl⟩
  · exact ⟨.answer h, fun heq => hne (R1Result.answer.inj heq)⟩
  · exact ⟨.timeout h, nofun⟩

/-- Settles O37: CMD17 answered R1 == 0 (`exec_read_answered`), the whole block received (`receive_block`), and the
caller of `Receive` delivers it. -/
theorem readDelivers : Obligations.ReadDelivers := by
  rintro s ready frameIn r1In tokenIn payload rest crc0 crc1 _ h hr hb hready hframe hr1
    ⟨gap, hit, rfl, hgap, hhit, hlast⟩ hlength hc rfl
  have hbudget : gap.length < s.params.retryBudget := by simpa using hlast
  obtain rfl : hit = Config.startToken := by simpa [isStartToken] using hhit
  obtain ⟨n, k, hexec⟩ := exec_read_answered h (BitVec.lt_def.mpr hr) ⟨hb, hready, hframe, .answer hr1⟩
    (rest := gap ++ Config.startToken :: (payload ++ crc0 :: crc1 :: rest)) (by simpa using hc)
  refine ⟨gap.length + 1, 1, ?_⟩
  rw [hexec, receive_block blockBytes _ gap payload rest crc0 crc1 rfl hgap (by exact hbudget) hlength
    (List.ne_nil_of_length_pos (by rw [hlength]; decide)), finish_readDelivered rfl rfl]
  simp [commandEnds, respond, dropPayload, advancePosition, startCommand, sectorArgument, received, h.idle]

/-- Settles O38: CMD17 refused (`exec_read_refused`), or answered and then no start token (`receive_noToken`). -/
theorem readFailsWithIo : Obligations.ReadFailsWithIo := by
  rintro s ready frameIn r1In tokenIn rest _ h hr hb hready hframe rfl
  have hrange := BitVec.lt_def.mpr hr
  refine ⟨fun r hrefused hc => ?_, fun hr1 hmiss hc => ?_⟩
  · obtain ⟨hr1, hne⟩ := R1PollGives.of_refused hrefused
    obtain ⟨n, k, hexec⟩ := exec_read_refused h hrange ⟨hb, hready, hframe, hr1⟩ hne hc
    refine ⟨n, k, ?_⟩
    rw [hexec]
    simp [commandEnds, fail, respond, dropPayload, startCommand, sectorArgument, h.idle]
  · obtain ⟨n, k, hexec⟩ := exec_read_answered h hrange ⟨hb, hready, hframe, .answer hr1⟩
      (rest := tokenIn ++ rest) (by simpa using hc)
    refine ⟨s.params.retryBudget, k, ?_⟩
    rw [hexec, receive_noToken blockBytes _ tokenIn rest rfl (by exact hb) (by exact hmiss),
      finish_readMissing rfl (by simp)]
    simp [commandEnds, fail, respond, dropPayload, startCommand, sectorArgument, h.idle]

/-- Settles O39: CMD24 answered R1 == 0 (`exec_write_answered`), the block accepted and released in time
(`transmit_released`), and the caller of `Transmit` moves the cursor. -/
theorem writeStores : Obligations.WriteStores := by
  rintro s payload ready frameIn r1In blockIn busyIn rest d _ h he hr hb hready hframe hr1 hblock hd
    ⟨misses, hit, rfl, hm, hh, hlast⟩ hc rfl
  have hbudget : misses.length < s.params.retryBudget := by simpa using hlast
  obtain ⟨t0, dataIn, f0, f1, rfl, hdata⟩ := blockHeard_cases hblock
  obtain ⟨n, k, hexec⟩ := exec_write_answered payload h he (BitVec.lt_def.mpr hr) ⟨hb, hready, hframe, .answer hr1⟩
    (rest := t0 :: (dataIn ++ f0 :: f1 :: d :: (misses ++ hit :: rest))) (by simpa using hc)
  refine ⟨misses.length + 1, 1, ?_⟩
  rw [hexec, transmit_released _ payload rfl t0 f0 f1 d hit dataIn misses rest rfl hdata ((isAccepting_iff d).mpr hd)
    hm hh (by exact hbudget), finish_writeStored rfl rfl, blockPairs_eq payload t0 f0 f1 hdata]
  simp [commandEnds, respond, dropPayload, advancePosition, startCommand, sectorArgument, received, h.idle]

/-- Settles O40: CMD24 refused (`exec_write_refused`), the block not accepted (`transmit_rejected`), or accepted and the
card busy for too long (`transmit_busy`). -/
theorem writeFailsWithIo : Obligations.WriteFailsWithIo := by
  rintro s payload ready frameIn r1In blockIn busyIn rest d _ h he hr hb hready hframe rfl
  have hrange := BitVec.lt_def.mpr hr
  refine ⟨fun r hrefused hc => ?_, fun hr1 hblock hd hc => ?_, fun hr1 hblock hd hmiss hc => ?_⟩
  · obtain ⟨hr1, hne⟩ := R1PollGives.of_refused hrefused
    obtain ⟨n, k, hexec⟩ := exec_write_refused payload h he hrange ⟨hb, hready, hframe, hr1⟩ hne hc
    refine ⟨n, k, ?_⟩
    rw [hexec]
    simp [commandEnds, fail, respond, dropPayload, startCommand, sectorArgument, h.idle]
  · obtain ⟨t0, dataIn, f0, f1, rfl, hdata⟩ := blockHeard_cases hblock
    obtain ⟨n, k, hexec⟩ := exec_write_answered payload h he hrange ⟨hb, hready, hframe, .answer hr1⟩
      (rest := t0 :: (dataIn ++ f0 :: f1 :: d :: rest)) (by simpa using hc)
    refine ⟨n, 1, ?_⟩
    rw [hexec, transmit_rejected _ payload rfl t0 f0 f1 d dataIn rest rfl hdata
      (Bool.eq_false_iff.mpr (mt (isAccepting_iff d).mp hd)), finish_writeFailed rfl (by simp),
      blockPairs_eq payload t0 f0 f1 hdata]
    simp [commandEnds, fail, respond, dropPayload, startCommand, sectorArgument, h.idle]
  · obtain ⟨t0, dataIn, f0, f1, rfl, hdata⟩ := blockHeard_cases hblock
    obtain ⟨n, k, hexec⟩ := exec_write_answered payload h he hrange ⟨hb, hready, hframe, .answer hr1⟩
      (rest := t0 :: (dataIn ++ f0 :: f1 :: d :: (busyIn ++ rest))) (by simpa using hc)
    refine ⟨s.params.retryBudget, 1, ?_⟩
    rw [hexec, transmit_busy _ payload rfl t0 f0 f1 d dataIn busyIn rest rfl (by exact hb) hdata
      ((isAccepting_iff d).mpr hd) (by exact hmiss), finish_writeFailed rfl (by simp),
      blockPairs_eq payload t0 f0 f1 hdata]
    simp [commandEnds, fail, respond, dropPayload, startCommand, sectorArgument, received, h.idle]

end Sys2Proof.Machine
end

section
/-! The family of 45_block_store.md, the cursor (R181): a step keeps the invariant, and moves the cursor in one of four
ways or not at all. -/

namespace Sys2Proof.Machine

/-! ## A step keeps the invariant -/

/-- The same machine with another request on its lines and another script of the host. -/
def withHost (request : Option HostRequest) (script : List HostRequest) (s : State) : State :=
  { s with request := request, script := script }

/-- The invariant says nothing of the request lines and the script. -/
theorem Inv.withHost {s : State} (h : Inv s) (request : Option HostRequest) (script : List HostRequest) :
    Inv (withHost request script s) :=
  inv_of_parts h.phase ⟨h.params, h.deviceInv, h.idleWait, h.noOutbound, h.store⟩ h.pointInv

theorem SettledDevice.seek {dev : DeviceState} (h : SettledDevice dev) {position : Sector}
    (hr : position ≤ dev.blockCount) : SettledDevice { dev with position := position } :=
  ⟨h.initialized, h.present, h.decided, h.blockSize, h.blockCount, fun _ => hr⟩

/-- The acceptance of a host operation by an IDLE engine keeps the invariant. -/
theorem StartsTo.keepsInv {i : Instr} {s t : State} (h : StartsTo s i t) (hinv : Inv s) (hb : busy s = false) :
    Inv t := by
  have htop : s.phase.top = .idle := (not_busy_iff s).mp hb
  have hsettled : SettledDevice s.dev := hinv.deviceInv.settled (inInit_of_not_busy hb)
  have hsub : s.phase.sub = .none := by simpa [Phase.legal, htop] using hinv.phase
  have hrx : s.rxData = [] := hinv.noReceived (by simp [hsub]) (by simp [hsub])
  have htx : s.txData = none := by simpa [htop] using hinv.noOutbound
  have hover {u : State} (phase : u.phase = Phase.idle) (device : SettledDevice u.dev) (params : u.params = s.params)
      (rxData : u.rxData = s.rxData) (txData : u.txData = s.txData) (card : u.card = s.card) : Inv u :=
    inv_of_ended phase (params ▸ hinv.params) device (rxData.trans hrx) (txData.trans htx) (card ▸ hinv.store)
  cases h with
  | readBegins dev range =>
    exact inv_startCommand nofun
      ⟨hinv.params, ⟨nofun, fun _ => hsettled, fun _ => ⟨dev, range⟩⟩, nofun, by simp [htx], hinv.store⟩ hrx
  | writeBegins payload dev _ range =>
    exact inv_startCommand nofun
      ⟨hinv.params, ⟨nofun, fun _ => hsettled, fun _ => ⟨dev, range⟩⟩, nofun, by simp, hinv.store⟩ hrx
  | seekMoves sector _ range => exact hover rfl (hsettled.seek (BitVec.le_of_lt range)) rfl rfl rfl rfl
  | _ => exact hover rfl hsettled rfl rfl rfl rfl

/-- What the step that accepts `i` in `u` leads to: the operation is over, or has made its first exchange (log 10). -/
inductive AcceptedAs (i : Instr) (u : State) : State → Prop where
  | ended (idle : busy (startRequest i u) = false) : AcceptedAs i u (startRequest i u)
  | begun (runs : busy (startRequest i u) = true) : AcceptedAs i u (tick (startRequest i u))

theorem accept_acceptedAs {r : HostRequest} {u t : State} (h : accept r u = .next t) :
    t = u ∨ ∃ i, decodeRequest r = .ok i ∧ AcceptedAs i u t := by
  rcases accept_next h with ⟨rfl, -⟩ | ⟨i, hi, -, ⟨hidle, rfl⟩ | ⟨hruns, -, rfl⟩⟩
  · exact .inl rfl
  · exact .inr ⟨i, hi, .ended hidle⟩
  · exact .inr ⟨i, hi, .begun hruns⟩

theorem request_of_presented {s : State} {r : HostRequest} (h : presented s = some r) : s.request = some r := by
  unfold presented at h
  repeat' split at h
  all_goals simp_all

/-- What a step of an IDLE engine can do: nothing, or the acceptance of the request on its lines or of the next one of
the script. -/
theorem step_idle_cases {s t : State} (hb : busy s = false) (h : step s = .next t) :
    ∃ request script, t = withHost request script s ∨
      ∃ r i, (s.request = some r ∨ s.script.head? = some r) ∧ decodeRequest r = .ok i ∧
        AcceptedAs i (withHost request script s) t := by
  unfold step at h
  split at h
  · rename_i r hp
    rw [if_neg (by simp [hb])] at h
    exact ⟨none, s.script, (accept_acceptedAs h).imp_right fun ⟨i, hi⟩ => ⟨r, i, .inl (request_of_presented hp), hi⟩⟩
  · rw [if_neg (by simp [hb]), idleStep] at h
    split at h
    · cases h
      exact ⟨s.request, s.script, .inl rfl⟩
    · rename_i r rest hs
      exact ⟨s.request, rest, (accept_acceptedAs h).imp_right fun ⟨i, hi⟩ => ⟨r, i, .inr (by rw [hs]; rfl), hi⟩⟩

/-- Every step keeps the invariant. -/
theorem step_keepsInv {s t : State} (hinv : Inv s) (h : step s = .next t) : Inv t := by
  rcases step_cases h with ⟨-, -, -, rfl⟩ | ⟨hb, -⟩
  · exact tick_keepsInv hinv
  · obtain ⟨request, script, rfl | ⟨r, i, -, hi, ht⟩⟩ := step_idle_cases hb h
    · exact hinv.withHost request script
    · have hstarted := (startRequest_startsTo (withHost request script s) (decodeRequest_host hi)).keepsInv
        (hinv.withHost request script) hb
      cases ht with
      | ended => exact hstarted
      | begun => exact tick_keepsInv hstarted

/-! ## The four ways of the cursor (R181) -/

/-- An exchange of a busy engine moves the cursor in three ways: to 0 at Ready, and by one with the response of a READ
or a WRITE that is Ok. -/
inductive CursorTicks (s t : State) : Prop where
  | stays (position : t.dev.position = s.dev.position)
  | ready (top : s.phase.top = .initReadReg) (idle : t.phase.top = .idle) (result : t.dev.initResult = .ready)
      (position : t.dev.position = 0#33)
  | read (top : s.phase.top = .opRead) (idle : t.phase.top = .idle) (payload : List Byte)
      (length : payload.length = 512) (responses : t.responses = s.responses ++ [.data payload])
      (position : t.dev.position = s.dev.position + 1#33)
  | write (top : s.phase.top = .opWrite) (idle : t.phase.top = .idle)
      (responses : t.responses = s.responses ++ [.status .ok]) (position : t.dev.position = s.dev.position + 1#33)

/-- `Receive` ends with Ok only after the CRC bytes (R153). -/
theorem ReactsTo.receive_ok {length : Nat} {i : Byte} {u v : State} (h : ReactsTo length i u v)
    (hu : u.phase.sub = .rxToken ∨ u.phase.sub = .rxPayload ∨ u.phase.sub = .rxCrc) (hv : v.phase.sub = .none)
    (hok : v.framerResult = .ok) : u.phase.sub = .rxCrc := by
  cases h <;> simp_all

theorem ResumesTo.cursorTicks {sub : SubPhase} {v t : State} (h : ResumesTo sub v t)
    (hready : v.params.readyPosition = 0#33)
    (hblock : v.phase.top = .opRead → sub = .rxToken ∨ sub = .rxPayload ∨ sub = .rxCrc → v.framerResult = .ok →
      v.rxData.length = 512) : CursorTicks v t := by
  obtain ⟨csd, hcsd⟩ := latchCsd_cases v
  cases h with
  | registerReady top => rw [hcsd]; exact .ready top rfl rfl hready
  | registerForeign => rw [hcsd]; exact .stays rfl
  | readDelivered top group result => exact .read top rfl v.rxData (hblock top group result) rfl rfl
  | writeStored top => exact .write top rfl rfl rfl
  | _ => exact .stays rfl

theorem CursorTicks.of_kept {s v t : State} (h : CursorTicks v t) (dev : v.dev = s.dev)
    (phase : v.phase.top = s.phase.top) (answered : v.responses = s.responses) : CursorTicks s t := by
  cases h with
  | stays position => exact .stays (by rw [position, dev])
  | ready top idle result position => exact .ready (phase ▸ top) idle result position
  | read top idle payload length responses position =>
    exact .read (phase ▸ top) idle payload length (by rw [responses, answered]) (by rw [position, dev])
  | write top idle responses position =>
    exact .write (phase ▸ top) idle (by rw [responses, answered]) (by rw [position, dev])

theorem tick_cursorTicks {s : State} (hinv : Inv s) (hb : busy s = true) : CursorTicks s (tick s) := by
  rw [tick_busy hb]
  have hs := sub_ne_none hb hinv.phase
  obtain ⟨f, v, -, -, hreact, hv⟩ := engineStep_cases (s := cardMoves s) (cardByte s) hb hs
  have hkept := hreact.frame_kept
  rcases hv with ⟨-, he⟩ | ⟨hended, hresume⟩
  · rw [he]
    exact .stays (congrArg DeviceState.position hkept.dev)
  · have hblock (htop : v.phase.top = .opRead)
        (hsub : s.phase.sub = .rxToken ∨ s.phase.sub = .rxPayload ∨ s.phase.sub = .rxCrc)
        (hok : v.framerResult = .ok) : v.rxData.length = 512 := by
      have hread : s.phase.top = .opRead := hkept.top.symm.trans htop
      have hwhole := hinv.received (hreact.receive_ok hsub hended hok)
      rw [hreact.rxData_ended hs hended]
      exact hwhole.trans (by rw [hread]; rfl)
    have hready : v.params.readyPosition = 0#33 := by rw [hkept.params]; exact hinv.params.2.2
    exact (hresume.cursorTicks hready hblock).of_kept hkept.dev hkept.top hkept.responses

/-- The cursor of a READ or WRITE is below a sector count of at most 2^32, so that one more does not wrap (R181). -/
theorem Inv.position_succ {s : State} (h : Inv s) (ht : s.phase.top = .opRead ∨ s.phase.top = .opWrite) :
    (s.dev.position + 1#33).toNat = s.dev.position.toNat + 1 := by
  obtain ⟨hi, hr⟩ := h.operation ht
  have hcount := (h.blockCount hi).2
  have hlt := BitVec.lt_def.mp hr
  rw [BitVec.toNat_add]
  exact Nat.mod_eq_of_lt (by simp; omega)

theorem decodeRequest_seek {r : HostRequest} {sector : BitVec 32} (h : decodeRequest r = .ok (.seek sector)) :
    r.op = 1#3 ∧ sector = r.sector := by
  unfold decodeRequest at h
  repeat' split at h
  all_goals cases h
  exact ⟨‹_›, rfl⟩

/-- Only a SEEK moves the cursor when it is accepted. -/
theorem StartsTo.cursor {i : Instr} {s t : State} (h : StartsTo s i t) :
    t.dev.position = s.dev.position ∨ ∃ sector, i = .seek sector ∧ t.phase.top = .idle ∧
      t.responses = s.responses ++ [.status .ok] ∧ t.dev.position = seekSector sector := by
  cases h with
  | seekMoves sector => exact .inr ⟨sector, rfl, rfl, rfl, rfl⟩
  | _ => exact .inl rfl

/-- The first exchange of an operation leaves the cursor. -/
theorem tick_ready_dev {s : State} (hb : busy s = true) (hs : s.phase.sub = .cmdReady) : (tick s).dev = s.dev := by
  rw [tick_busy hb]
  obtain ⟨f, v, -, -, hreact, hv⟩ := engineStep_cases (s := cardMoves s) (cardByte s) hb (by simp [hs])
  rcases hv with ⟨-, he⟩ | ⟨hended, -⟩
  · rw [he]; exact hreact.frame_kept.dev
  · have := hreact.ended (by simp [hs]) hended
    simp [hs] at this

/-- Settles O52: the bound is a clause of the invariant, which a step keeps; an exchange is `tick_cursorTicks`, and an
acceptance moves the cursor for a SEEK only (`StartsTo.cursor`). -/
theorem cursorMoves : Obligations.CursorMoves := by
  intro s t hinv hstep
  have ht := step_keepsInv hinv hstep
  refine ⟨fun hi => BitVec.le_def.mp (ht.position hi), ?_⟩
  rcases step_cases hstep with ⟨hb, -, -, rfl⟩ | ⟨hb, -⟩
  · cases tick_cursorTicks hinv hb with
    | stays position => exact .inl position
    | ready top idle result position => exact .inr (.inl ⟨top, idle, result, position⟩)
    | read top idle payload length responses position =>
      exact .inr (.inr (.inr (.inl
        ⟨top, idle, ⟨payload, length, responses⟩, by rw [position, hinv.position_succ (.inl top)]⟩)))
    | write top idle responses position =>
      exact .inr (.inr (.inr (.inr ⟨top, idle, responses, by rw [position, hinv.position_succ (.inr top)]⟩)))
  · obtain ⟨request, script, rfl | ⟨r, i, hr, hdecode, ht⟩⟩ := step_idle_cases hb hstep
    · exact .inl rfl
    have hstart := startRequest_startsTo (withHost request script s) (decodeRequest_host hdecode)
    cases ht with
    | ended =>
      rcases hstart.cursor with hstays | ⟨sector, rfl, hidle, hresponses, hposition⟩
      · exact .inl hstays
      · obtain ⟨hop, rfl⟩ := decodeRequest_seek hdecode
        exact .inr (.inr (.inl ⟨(not_busy_iff s).mp hb, hidle, hresponses, r, hr, hop,
          by rw [hposition, seekSector_toNat]⟩))
    | begun hruns =>
      rw [tick_ready_dev hruns (hstart.sub_of_busy hruns)]
      rcases hstart.cursor with hstays | ⟨_, -, hidle, -⟩
      · exact .inl hstays
      · exact absurd hidle ((busy_iff _).mp hruns)

end Sys2Proof.Machine
end

section
/-! The family of 60_exceptions.md, polls: what the byte that exhausts a poll leads to (R102, R205). -/

namespace Sys2Proof.Machine

/-! ## What the callers make of a poll that was exhausted (R205) -/

/-- The outcome of an R1 Timeout for the operation in progress (R205). -/
def timedOut : TopPhase → State → State
  | .initReset => doneInit .notPresent
  | .initVoltage => doneInit .unsupported
  | .initIdleWait | .initReadReg => doneInit .failed
  | .opRead | .opWrite => fun s => fail .io (dropPayload s)
  | .idle => abandon

theorem timedOut_phase (top : TopPhase) (s : State) : (timedOut top s).phase = Phase.idle := by
  cases top <;> rfl

theorem timedOut_r1 (top : TopPhase) (s : State) : (timedOut top s).r1 = s.r1 := by
  cases top <;> rfl

/-- The caller of a command that timed out goes no further. -/
theorem afterCommand_timeout {s : State} {top : TopPhase} (ht : s.phase.top = top) (h : s.r1 = .timeout) :
    afterCommand s = timedOut top s := by
  cases top with
  | idle => rw [afterCommand, ht]; rfl
  | initReset => rw [afterCommand_initReset ht, if_neg (by simp [h])]; rfl
  | initVoltage => rw [afterCommand_initVoltage ht, if_neg (by simp [h])]; rfl
  | initReadReg => rw [afterCommand_initReadReg ht, if_neg (by simp [h])]; rfl
  | opRead => rw [afterCommand_opRead ht, if_neg (by simp [h])]; rfl
  | opWrite => rw [afterCommand_opWrite ht, if_neg (by simp [h])]; rfl
  | initIdleWait =>
    cases ha : s.phase.acmd with
    | false => rw [afterCommand_prefix ht ha, if_pos h]; rfl
    | true => rw [afterCommand_idleWait ht ha, if_pos h]; rfl

/-- ReadRegister without its block is Failed (R134, D10). -/
theorem afterReceive_registerMissing {s : State} (ht : s.phase.top = .initReadReg) (hf : s.framerResult = .io) :
    afterReceive s = doneInit .failed s := by
  rw [afterReceive_initReadReg ht, if_pos (by simp [hf])]

/-- READ without its block is IO (R177). -/
theorem afterReceive_sectorMissing {s : State} (ht : s.phase.top = .opRead) (hf : s.framerResult = .io) :
    afterReceive s = fail .io (dropPayload s) := by
  simp only [afterReceive, ht, afterReadBlock, hf, reduceCtorEq, if_false]

/-- WRITE without its acknowledgement is IO (R178, D16). -/
theorem afterTransmit_failed {s : State} (ht : s.phase.top = .opWrite) (hf : s.framerResult = .io) :
    afterTransmit s = fail .io (dropPayload s) := by
  simp only [afterTransmit, ht, afterWriteBlock, hf, reduceCtorEq, if_false]

/-! ## The byte that exhausts a poll (R102) -/

theorem pollStep_exhausted {hit : Bool} {s : State} (onHit onExhausted : State → State) (miss : hit = false)
    (budget : s.params.retryBudget ≤ s.n + 1) :
    pollStep hit onHit onExhausted s = onExhausted { s with n := s.n + 1 } := by
  simp [pollStep, miss, pollExhausted, budget]

/-- One exchange of a poll is recorded and counted. -/
def polled (i : Byte) (s : State) : State := { record 0xFF#8 i s with n := s.n + 1 }

section
variable {i : Byte} {s : State} (hb : busy s = true) (hn : s.params.retryBudget ≤ s.n + 1)
include hb hn

/-- The ready poll, exhausted, is not fatal: the frame follows (R111, D8). -/
theorem engineStep_ready_exhausted (hs : s.phase.sub = .cmdReady) (hi : isReady i = false) :
    engineStep i s = startRun .cmdFrame (polled i (latchFrame s)) := by
  refine engineStep_within hb ?_ (by simp)
  rw [outByte_poll (by simp [hs, SubPhase.polls]), react, record_phase, latchFrame_phase, hs]
  exact pollStep_exhausted _ _ hi (by simpa using hn)

/-- Every other poll, exhausted, ends its procedure: a poll sends 0xFF, and only the ready poll latches a frame. -/
theorem engineStep_poll_exhausted {sub : SubPhase} {hit : Bool} {onHit onExhausted : State → State}
    (hs : s.phase.sub = sub) (polls : sub.polls = true) (noFrame : sub ≠ .cmdReady)
    (hreact : react (rxLength s.phase.top) i (record 0xFF#8 i s) =
      pollStep hit onHit onExhausted (record 0xFF#8 i s))
    (miss : hit = false) (ends : ∀ u, (onExhausted u).phase.sub = .none) :
    engineStep i s = returnFrom sub (onExhausted (polled i s)) := by
  subst hs
  refine engineStep_returns hb ?_ (ends _)
  rw [outByte_poll polls, latchFrame_elsewhere fun h => absurd h noFrame, hreact]
  exact pollStep_exhausted _ _ miss hn

/-- The R1 poll, exhausted, is a Timeout (R114). -/
theorem engineStep_r1_exhausted (hs : s.phase.sub = .cmdR1) (hi : isR1 i = false) :
    engineStep i s = timedOut s.phase.top (endProcedure { polled i s with r1 := .timeout }) := by
  rw [engineStep_poll_exhausted hb hn hs rfl nofun (by rw [react, record_phase, hs]; rfl) hi fun _ => rfl]
  exact afterCommand_timeout rfl rfl

/-- The start-token poll, exhausted: `Receive` returns IO (R151). -/
theorem engineStep_token_exhausted (hs : s.phase.sub = .rxToken) (hi : isStartToken i = false) :
    engineStep i s = afterReceive (endFramer .io (polled i s)) :=
  engineStep_poll_exhausted hb hn hs rfl nofun (by rw [react, record_phase, hs]; rfl) hi fun _ => rfl

/-- The busy poll, exhausted: `Transmit` returns IO (R156). -/
theorem engineStep_busy_exhausted (hs : s.phase.sub = .txBusy) (hi : isReady i = false) :
    engineStep i s = afterTransmit (endFramer .io (polled i s)) :=
  engineStep_poll_exhausted hb hn hs rfl nofun (by rw [react, record_phase, hs]; rfl) hi fun _ => rfl

end

/-- Settles O22: each poll goes on as `engineStep_ready_exhausted` and its three siblings say; a Timeout has the
outcome of `timedOut`, and the callers of `Receive` and `Transmit` fail on IO. -/
theorem pollExhaustion : Obligations.PollExhaustion := by
  rintro i s t hb hn rfl
  have hn : s.params.retryBudget ≤ s.n + 1 := hn.ge
  refine ⟨fun hs hi => ?_, fun hs hi => ?_, fun hs hi => ?_, fun hs hi ht => ?_⟩
  · rw [engineStep_ready_exhausted hb hn hs (beq_false_of_ne hi)]
    simp [polled, startRun, goto]
  · rw [engineStep_r1_exhausted hb hn hs (isR1_of_high i hi)]
    refine ⟨timedOut_r1 _ _, timedOut_phase _ _, fun ht => ?_, fun ht => ?_, fun ht => ?_, fun ht => ?_⟩
    · rw [ht]; rfl
    · rw [ht]; rfl
    · rcases ht with ht | ht <;> rw [ht] <;> rfl
    · rcases ht with ht | ht <;> rw [ht] <;> exact ⟨rfl, rfl⟩
  · rw [engineStep_token_exhausted hb hn hs (beq_false_of_ne hi)]
    refine ⟨fun ht => ?_, fun ht => ?_⟩
    · rw [afterReceive_registerMissing (by exact ht) rfl]
      exact ⟨rfl, rfl⟩
    · rw [afterReceive_sectorMissing (by exact ht) rfl]
      exact ⟨rfl, rfl, rfl⟩
  · rw [engineStep_busy_exhausted hb hn hs (beq_false_of_ne hi), afterTransmit_failed (by exact ht) rfl]
    exact ⟨rfl, rfl, rfl⟩

end Sys2Proof.Machine
end

section
/-! The family of 60_exceptions.md, no halt: the exchanges still to make when the engine is in a legal phase, with the
numbers of R139 and R238 (R210). -/

namespace Sys2Proof.Machine

/-! ## Exchanges of the procedure in progress (R110, R157) -/

theorem pollLeft_le (s : State) : pollLeft s ≤ budget s.params := by
  simp only [pollLeft, budget]; omega

theorem runLeft_le (length : Nat) (s : State) : runLeft length s ≤ max 1 length := by
  simp only [runLeft]; omega

theorem commandBound_pos (p : Params) : 1 ≤ commandBound p := by simp only [commandBound]; omega

/-- A command makes at most the exchanges of its two polls and its frame (R110). -/
theorem procedureLeft_le_commandBound (length : Nat) {s : State} (h : s.phase.sub.inCommand = true) :
    procedureLeft length s ≤ commandBound s.params := by
  have hpoll := pollLeft_le s
  have hframe := runLeft_le 6 s
  cases hs : s.phase.sub <;> simp only [hs, SubPhase.inCommand, Bool.false_eq_true] at h <;>
    simp only [procedureLeft, hs, commandBound] <;> omega

theorem receiveBound_pos (length : Nat) (p : Params) : 1 ≤ receiveBound length p := by
  simp only [receiveBound]; omega

/-- The control points of `Receive` (R150). -/
def SubPhase.inReceive (sub : SubPhase) : Prop := sub = .rxToken ∨ sub = .rxPayload ∨ sub = .rxCrc

/-- The control points of `Transmit` (R154). -/
def SubPhase.inTransmit (sub : SubPhase) : Prop :=
  sub = .txToken ∨ sub = .txPayload ∨ sub = .txCrc ∨ sub = .txResp ∨ sub = .txBusy

/-- The procedure in progress in each operation (R35). -/
theorem Phase.legal_cases {p : Phase} (h : p.legal = true) :
    p.top = .idle ∨ p.sub.inCommand = true ∨ (p.top = .initVoltage ∧ p.sub = .r7Bytes) ∨
      ((p.top = .initReadReg ∨ p.top = .opRead) ∧ p.sub.inReceive) ∨ (p.top = .opWrite ∧ p.sub.inTransmit) := by
  unfold Phase.legal at h
  cases ht : p.top <;> simp_all [SubPhase.inReceive, SubPhase.inTransmit, or_assoc]

/-- `Receive(length)` makes at most the exchanges of its poll, its payload and the two CRC bytes (R157). -/
theorem procedureLeft_le_receiveBound {length : Nat} (hlength : 1 ≤ length) {s : State}
    (h : s.phase.sub.inReceive) : procedureLeft length s ≤ receiveBound length s.params := by
  have hpoll := pollLeft_le s
  have hpayload := runLeft_le length s
  have hcrc := runLeft_le 2 s
  rcases h with hs | hs | hs <;> simp only [procedureLeft, hs, receiveBound] <;> omega

/-- Most exchanges of `Transmit` (R157): the start token, the payload, two fillers, the data response and the busy
poll. -/
def transmitBound (p : Params) : Nat := 1 + blockBytes + 2 + 1 + budget p

theorem transmitBound_pos (p : Params) : 1 ≤ transmitBound p := by simp only [transmitBound]; omega

theorem procedureLeft_le_transmitBound (length : Nat) {s : State} (h : s.phase.sub.inTransmit) :
    procedureLeft length s ≤ transmitBound s.params := by
  have hpoll := pollLeft_le s
  have hpayload : runLeft blockBytes s ≤ blockBytes := runLeft_le blockBytes s
  have hcrc := runLeft_le 2 s
  rcases h with hs | hs | hs | hs | hs <;> simp only [procedureLeft, hs, transmitBound] <;> omega

/-! ## Exchanges of the operation in progress (R139, R238) -/

/-- Nothing follows a block received. -/
theorem operationLeft_of_receive {s : State} (h : s.phase.sub.inReceive) : operationLeft s = 0 := by
  rcases h with hs | hs | hs <;> cases ht : s.phase.top <;> simp [operationLeft, ht, hs, SubPhase.inCommand]

/-- Nothing follows a block sent. -/
theorem operationLeft_of_transmit {s : State} (h : s.phase.sub.inTransmit) : operationLeft s = 0 := by
  rcases h with hs | hs | hs | hs | hs <;> cases ht : s.phase.top <;>
    simp [operationLeft, ht, hs, SubPhase.inCommand]

theorem idleWaitBound_mono {m k : Nat} (h : m ≤ k) (p : Params) : idleWaitBound m p ≤ idleWaitBound k p :=
  Nat.add_le_add_right (Nat.mul_le_mul_right _ h) _

theorem receiveBound_le_idleWaitBound (m : Nat) (p : Params) : receiveBound 16 p ≤ idleWaitBound m p := by
  simp only [idleWaitBound, readRegBound]; omega

theorem receiveBound_le_transmitBound (p : Params) : receiveBound blockBytes p ≤ transmitBound p := by
  simp only [receiveBound, transmitBound]; omega

/-- IdleWait has at most INIT_BUDGET iterations left, of which the command in progress is already part (R133). -/
theorem operationLeft_idleWait_le {s : State} (ht : s.phase.top = .initIdleWait) :
    operationLeft s + commandBound s.params ≤ idleWaitBound (max 1 s.params.initBudget) s.params := by
  obtain ⟨m, hm⟩ : ∃ m, iterationsLeft s = m + 1 := ⟨iterationsLeft s - 1, by simp only [iterationsLeft]; omega⟩
  have hmost : idleWaitBound (m + 1) s.params ≤ idleWaitBound (max 1 s.params.initBudget) s.params :=
    idleWaitBound_mono (by rw [← hm]; simp only [iterationsLeft]; omega) _
  rw [idleWaitBound_succ] at hmost
  simp only [operationLeft, ht, hm, Nat.add_sub_cancel]
  split_ifs <;> omega

/-- What INIT may still do after the procedure in progress is at most what follows its first command (R139). -/
theorem operationLeft_init_le {s : State} (hi : s.phase.top.inInit = true) :
    operationLeft s ≤ commandBound s.params + 4 + idleWaitBound (max 1 s.params.initBudget) s.params := by
  have hregister := receiveBound_le_idleWaitBound (max 1 s.params.initBudget) s.params
  cases ht : s.phase.top with
  | idle | opRead | opWrite => simp [ht, TopPhase.inInit] at hi
  | initReset | initVoltage | initReadReg => simp only [operationLeft, ht]; split_ifs <;> omega
  | initIdleWait => have := operationLeft_idleWait_le ht; omega

theorem exchangesLeft_le {s : State} {procedure operation : Nat} (hpos : 1 ≤ procedure)
    (hp : procedureLeft (rxLength s.phase.top) s ≤ procedure) (ho : operationLeft s ≤ operation) :
    exchangesLeft s ≤ procedure + operation := by
  simp only [exchangesLeft]; split <;> omega

/-- What READ or WRITE may still do after its command is at most a `Transmit`. -/
theorem operationLeft_host_le {s : State} (hi : s.phase.top.inInit = false) :
    operationLeft s ≤ transmitBound s.params := by
  have hread := receiveBound_le_transmitBound s.params
  cases ht : s.phase.top with
  | initReset | initVoltage | initIdleWait | initReadReg => simp [ht, TopPhase.inInit] at hi
  | idle => simp [operationLeft, ht]
  | opRead | opWrite => simp only [operationLeft, ht, transmitBound] at hread ⊢; split_ifs <;> omega

theorem exchangesLeft_receive_le {s : State} (h : s.phase.sub.inReceive) :
    exchangesLeft s ≤ receiveBound (rxLength s.phase.top) s.params :=
  have hlength : 1 ≤ rxLength s.phase.top := by cases s.phase.top <;> decide
  exchangesLeft_le (operation := 0) (receiveBound_pos _ _) (procedureLeft_le_receiveBound hlength h)
    (operationLeft_of_receive h).le

theorem exchangesLeft_transmit_le {s : State} (h : s.phase.sub.inTransmit) :
    exchangesLeft s ≤ transmitBound s.params :=
  exchangesLeft_le (operation := 0) (transmitBound_pos _) (procedureLeft_le_transmitBound _ h)
    (operationLeft_of_transmit h).le

/-- INIT has most before it at its first exchange (R139). -/
theorem exchangesLeft_init_le {s : State} (hl : s.phase.legal = true) (hi : s.phase.top.inInit = true) :
    exchangesLeft s ≤ commandBound s.params +
      (commandBound s.params + 4 + idleWaitBound (max 1 s.params.initBudget) s.params) := by
  have hcommand := commandBound_pos s.params
  rcases Phase.legal_cases hl with ht | hs | ⟨ht, hs⟩ | ⟨ht | ht, hs⟩ | ⟨ht, hs⟩
  · simp [ht, TopPhase.inInit] at hi
  · exact exchangesLeft_le hcommand (procedureLeft_le_commandBound _ hs) (operationLeft_init_le hi)
  · have hreply : runLeft 4 s ≤ 4 := runLeft_le 4 s
    refine exchangesLeft_le hcommand ?_ (operationLeft_init_le hi)
    simp only [procedureLeft, hs, commandBound]; omega
  · have hbound := receiveBound_le_idleWaitBound (max 1 s.params.initBudget) s.params
    have hreceive := exchangesLeft_receive_le hs
    simp only [ht, rxLength] at hreceive
    omega
  · simp [ht, TopPhase.inInit] at hi
  · simp [ht, TopPhase.inInit] at hi

/-- READ and WRITE have most before them at their first exchange (R238). -/
theorem exchangesLeft_host_le {s : State} (hl : s.phase.legal = true) (hi : s.phase.top.inInit = false) :
    exchangesLeft s ≤ commandBound s.params + transmitBound s.params := by
  rcases Phase.legal_cases hl with ht | hs | ⟨ht, hs⟩ | ⟨ht | ht, hs⟩ | ⟨ht, hs⟩
  · rw [exchangesLeft_of_idle ht]
    exact Nat.zero_le _
  · exact exchangesLeft_le (commandBound_pos _) (procedureLeft_le_commandBound _ hs) (operationLeft_host_le hi)
  · simp [ht, TopPhase.inInit] at hi
  · simp [ht, TopPhase.inInit] at hi
  · have hreceive := exchangesLeft_receive_le hs
    simp only [ht, rxLength] at hreceive
    exact (hreceive.trans (receiveBound_le_transmitBound _)).trans (Nat.le_add_left _ _)
  · exact (exchangesLeft_transmit_le hs).trans (Nat.le_add_left _ _)

/-- Settles O57: the engine runs to the end within the bound (`run_runSteps`), and the bound in a legal phase is that
of the operation's first exchange. -/
theorem noHaltEver : Obligations.NoHaltEver := by
  intro s hl hr
  obtain ⟨steps, hle, hrun⟩ := run_runSteps (exchangesLeft s) hr hl
  refine ⟨steps, finish s, hle, hrun, busy_finish s, fun hlegal ⟨hretry, hinit, _⟩ hi => ?_,
    fun hlegal ⟨hretry, _, _⟩ hi => ?_⟩
  · have h := exchangesLeft_init_le hlegal hi
    have hb : budget s.params = s.params.retryBudget := max_eq_right hretry
    calc exchangesLeft s
      _ ≤ _ := h
      _ = _ := by
        simp only [commandBound, idleWaitBound, readRegBound, receiveBound, hb, max_eq_right hinit]; ring
  · have h := exchangesLeft_host_le hlegal hi
    have hb : budget s.params = s.params.retryBudget := max_eq_right hretry
    simp only [commandBound, transmitBound, hb, blockBytes] at h
    omega

end Sys2Proof.Machine
end

section
/-! The family of 70_reset_and_hazards.md, reset: its state (R231), INIT that starts by itself and refuses requests
until it has ended (R232), and the exchange that does not return (R237). -/

namespace Sys2Proof.Machine

/-! ## Reset (R231) -/

/-- Settles O6: the state at reset is a literal, and both budgets are a free number plus 1. -/
theorem resetState : Obligations.ResetState :=
  ⟨rfl, rfl, rfl, rfl, rfl, rfl, rfl, rfl, rfl, Nat.le_add_left 1 _, Nat.le_add_left 1 _⟩

/-! ## INIT starts by itself (R232) -/

/-- Leaving reset, the engine is about to send the command of Reset. -/
theorem fresh_eq_startCommand (p : Params) (card : Card) :
    State.fresh p card = startCommand .initReset false (State.fresh p card) := rfl

theorem undecidedDevice_reset : UndecidedDevice false State.reset.dev := ⟨rfl, rfl, rfl⟩

/-- The invariant holds leaving reset, for legal parameters and a card in canonical form. -/
theorem inv_fresh {p : Params} {card : Card} (hp : legalParams p) (hc : card.wf = true) :
    Inv (State.fresh p card) := by
  rw [fresh_eq_startCommand]
  exact inv_startCommand nofun
    { params := hp, device := ⟨fun _ => undecidedDevice_reset, nofun, nofun⟩, idleWait := nofun
      outbound := ⟨nofun, nofun⟩, store := hc } rfl

/-- What every step keeps holds at the end of a run. -/
theorem run_induction {P : State → Prop} (keeps : ∀ {s t}, P s → step s = .next t → P t) (steps : Nat) :
    ∀ {s t : State}, P s → Host.Core.run Sys2Proof.core steps s = .next t → P t := by
  induction steps with
  | zero => intro s t hs h; cases h; exact hs
  | succ steps ih =>
    intro s t hs h
    simp only [Host.Core.run] at h
    split at h
    · next u hu => exact ih (keeps hs hu) h
    · cases h
    · cases h

/-- A request that asks for something is refused by a busy engine (R182, R234, U5). -/
theorem step_request_busy {s : State} {r : HostRequest} (hb : busy s = true) (hr : r.op ≠ 0#3) :
    step { s with request := some r } = .refused .requestWhileBusy := by
  rw [step, presented_of_op rfl hr]
  exact if_pos hb

/-- Settles O7: the first step is the first exchange of a ready poll; a run keeps the invariant, by which a Pending
outcome is INIT in progress; and the run reaches its end (`reaches_finish`), where nothing is Pending. -/
theorem initStartsByItself : Obligations.InitStartsByItself := by
  intro p card hp hc
  have hinv := inv_fresh hp hc
  have hb : busy (State.fresh p card) = true := rfl
  refine ⟨⟨_, _, step_busy hb rfl rfl, tick_history hb⟩, fun steps s r hrun hpending hr => ?_, ?_⟩
  · have hs : Inv s := run_induction step_keepsInv steps hinv hrun
    have hbusy : busy s = true := busy_of_inInit (hs.pending.mp hpending)
    exact ⟨hbusy, step_request_busy hbusy hr⟩
  · have hidle := busy_finish (State.fresh p card)
    refine ⟨_, reaches_finish rfl rfl, hidle, fun hpending => ?_⟩
    have hinit := (finish_keepsInv hinv).pending.mp hpending
    rw [inInit_of_not_busy hidle] at hinit
    cases hinit

/-! ## An exchange that does not return (R237, U8) -/

theorem afterExchanges_stalled {s : State} (t : State) (h : s.stalled = true) :
    afterExchanges s t = .fault .exchangeNeverCompletes := by
  simp [afterExchanges, h]

theorem step_busy_stalled {s : State} (hb : busy s = true) (hr : s.request = none) (h : s.stalled = true) :
    step s = .fault .exchangeNeverCompletes := by
  simp only [step, presented_eq_none_of_request hr, hb, if_true, busyStep, afterExchanges_stalled _ h]

/-- The commands and the outbound block always make an exchange. -/
theorem exec_sends {i : Instr} (hi : i.context = .command ∨ ∃ payload, i = .txblock payload) (s : State) :
    ∃ t, exec i s = afterExchanges s t := by
  rcases hi with hi | ⟨payload, rfl⟩
  · cases i with
    | cmd0 | cmd8 | cmd9 | cmd17 | cmd24 | acmd41 | cmd55 => exact ⟨_, rfl⟩
    | _ => cases hi
  · exact ⟨_, rfl⟩

/-- Without exchanges a step leaves the engine where it makes none. -/
theorem step_stalled_next {s t : State} (hl : s.stalled = true) (h : step s = .next t) :
    busy s = false ∧ t.history = s.history := by
  rcases step_cases h with ⟨-, -, hlive, -⟩ | ⟨hb, u, hu, ht⟩
  · rw [hl] at hlive; cases hlive
  have hhistory : u.history = s.history := by rcases hu with rfl | rfl | ⟨r, rest, -, rfl⟩ <;> rfl
  rcases ht with rfl | ⟨i, hi, ⟨-, rfl⟩ | ⟨-, hlive, -⟩⟩
  · exact ⟨hb, hhistory⟩
  · exact ⟨hb, (startRequest_startsTo u hi).history.trans hhistory⟩
  · rw [hl] at hlive; cases hlive

/-- Settles O58: what makes an exchange ends in the fault, and of the ways a step can go on (`step_cases`) those with an
exchange ask for one that completes. -/
theorem stuckInAnExchange : Obligations.StuckInAnExchange := by
  intro s hl
  refine ⟨fun hb hr => step_busy_stalled hb hr hl, fun i hi => ?_, fun t h => step_stalled_next hl h⟩
  obtain ⟨t, ht⟩ := exec_sends hi s
  rw [ht, afterExchanges_stalled t hl]

end Sys2Proof.Machine
end

section
/-! The family of 70_reset_and_hazards.md, the bounds on exchanges per operation (R238). -/

namespace Sys2Proof.Machine

/-! ## The fewest exchanges of a data phase (R157) -/

/-- The fewest exchanges that `Receive(length)` or `Transmit` still makes: a start token or an exhausted poll, then what
is left of the block; a block sent ends no earlier than at its data response. -/
def blockLeast (length : Nat) (s : State) : Nat :=
  match s.phase.sub with
  | .rxToken => min (pollLeft s) (1 + max 1 length + 2)
  | .rxPayload => runLeft length s + 2
  | .rxCrc => runLeft 2 s
  | .txToken => 1 + blockBytes + 2 + 1
  | .txPayload => runLeft blockBytes s + 2 + 1
  | .txCrc => runLeft 2 s + 1
  | .txResp => 1
  | .none | .cmdReady | .cmdFrame | .cmdR1 | .r7Bytes | .txBusy => 0

/-- One exchange takes at most one off it. -/
theorem blockLeast_reactsTo {length : Nat} {i : Byte} {s t : State} (h : ReactsTo length i s t) :
    blockLeast length s ≤ blockLeast length t + 1 := by
  cases h with
  | tokenWaits sub | tokenArrives sub | tokenMissing sub | payloadGoes sub | payloadEnds sub | rxCrcGoes sub
  | rxCrcEnds sub | txTokenGoes sub | txPayloadGoes sub | txPayloadEnds sub | txCrcGoes sub | txCrcEnds sub
  | accepted sub | rejected sub =>
    simp only [blockLeast, pollLeft, runLeft, blockBytes, sub] at *; omega
  | _ => simp [blockLeast, *]

/-- What each exchange lowers by at most one is a lower bound on the exchanges of a procedure. -/
theorem finishProcedure_least {length : Nat} {least : State → Nat}
    (ended : ∀ s, s.phase.sub = .none → least s = 0)
    (pays : ∀ s, s.phase.sub ≠ .none → least s ≤ least (procedureTick length s) + 1) (s : State) :
    s.history.length + least s ≤ (finishProcedure length s).history.length := by
  refine finishProcedure_induction length (P := fun s t => s.history.length + least s ≤ t.history.length)
    (fun s hs => (congrArg _ (ended s hs)).le) (fun s t hs ih => ?_) s
  have hpays := pays s hs
  rw [procedureTick_history, List.length_append, List.length_singleton] at ih
  omega

theorem blockLeast_tick (length : Nat) {s : State} (hs : s.phase.sub ≠ .none) :
    blockLeast length s ≤ blockLeast length (procedureTick length s) + 1 :=
  blockLeast_reactsTo (s := record (outByte (cardMoves s)) (cardByte s) (cardMoves s))
    (procedureTick_reactsTo length hs)

/-- A data phase makes at least `blockLeast` exchanges and at most `procedureLeft`. -/
theorem finishProcedure_block_exchanges (length : Nat) (s : State) :
    ∃ pairs, (finishProcedure length s).history = s.history ++ pairs ∧ blockLeast length s ≤ pairs.length ∧
      pairs.length ≤ procedureLeft length s := by
  obtain ⟨pairs, hpairs, hmost⟩ := finishProcedure_history length s
  have hleast := finishProcedure_least (length := length) (least := blockLeast length)
    (fun s hs => by simp only [blockLeast, hs]) (fun s => blockLeast_tick length) s
  rw [hpairs, List.length_append] at hleast
  exact ⟨pairs, hpairs, Nat.le_of_add_le_add_left hleast, hmost⟩

/-- `Receive` makes the exchanges of its poll, or of its poll and its block (R157). -/
theorem receive_exchanges {length : Nat} {s : State} (hlength : 1 ≤ length) (hb : 1 ≤ s.params.retryBudget) :
    ∃ pairs, (receive length s).history = s.history ++ pairs ∧
      min s.params.retryBudget (length + 3) ≤ pairs.length ∧
      pairs.length ≤ s.params.retryBudget + length + 2 := by
  obtain ⟨pairs, hpairs, hleast, hmost⟩ := finishProcedure_block_exchanges length (startReceive s)
  simp only [blockLeast, procedureLeft, pollLeft, startReceive_phase_sub, startReceive_n, startReceive_params]
    at hleast hmost
  exact ⟨pairs, hpairs, by omega, by omega⟩

/-- `Transmit` makes the exchanges of its block and the data response, and then those of its busy poll (R157). -/
theorem transmit_exchanges {s : State} (hb : 1 ≤ s.params.retryBudget) :
    ∃ pairs, (transmit s).history = s.history ++ pairs ∧ 516 ≤ pairs.length ∧
      pairs.length ≤ s.params.retryBudget + 516 := by
  obtain ⟨pairs, hpairs, hleast, hmost⟩ := finishProcedure_block_exchanges blockBytes (goto .txToken s)
  simp only [blockLeast, procedureLeft, budget, blockBytes, goto_phase_sub, goto_params] at hleast hmost
  exact ⟨pairs, hpairs, hleast, by omega⟩

/-! ## INIT (R139) -/

theorem afterCommand_history (s : State) : (afterCommand s).history = s.history :=
  (returnFrom_frame .cmdReady s).history

/-- INIT makes at least the exchanges of its first command, and at most those of R139. -/
theorem init_exchanges {p : Params} (hp : legalParams p) (card : Card) :
    8 ≤ (finish (State.fresh p card)).history.length ∧ (finish (State.fresh p card)).history.length ≤
      (2 * p.retryBudget + 6) * (3 + 2 * p.initBudget) + p.retryBudget + 22 := by
  constructor
  · obtain ⟨sent, hsent, hleast, -⟩ := sendCommand_exchanges ⟨0#6, 0#32⟩ (s := State.fresh p card) hp.1
    obtain ⟨rest, hrest, -⟩ := finish_history (afterCommand (sendCommand ⟨0#6, 0#32⟩ (State.fresh p card)))
    rw [fresh_eq_startCommand, finish_startCommand .initReset false _ ⟨0#6, 0#32⟩ nofun rfl,
      ← fresh_eq_startCommand, hrest, afterCommand_history, hsent, List.length_append, List.length_append]
    omega
  · obtain ⟨added, hadded, hmost⟩ := finish_history (State.fresh p card)
    obtain ⟨-, -, -, -, -, hbound, -⟩ := noHaltEver (State.fresh p card) rfl rfl
    rw [hadded]
    exact hmost.trans (hbound rfl hp rfl)

/-! ## The host operations (R238) -/

/-- Most exchanges of a host operation (R238). -/
def hostBound (p : Params) : Instr → Nat
  | .read => commandBound p + receiveBound blockBytes p
  | .write _ => commandBound p + transmitBound p
  | _ => 0

theorem StartsTo.exchangesLeft_le {i : Instr} {s t : State} (h : StartsTo s i t) :
    exchangesLeft t ≤ hostBound s.params i := by
  cases h with
  | readBegins => exact (exchangesLeft_startCommand .opRead false s nofun).le
  | writeBegins payload => exact (exchangesLeft_startCommand .opWrite false { s with txData := some payload } nofun).le
  | _ => exact (exchangesLeft_of_idle rfl).trans_le (Nat.zero_le _)

/-- An IDLE engine runs a host operation to its end, within its bound. -/
theorem exec_host_exchanges {i : Instr} {s : State} (hi : i.context = .host) (hb : busy s = false)
    (hl : s.stalled = false) :
    ∃ t pairs, exec i s = .next t ∧ t.history = s.history ++ pairs ∧ pairs.length ≤ hostBound s.params i := by
  have hstart := startRequest_startsTo s hi
  obtain ⟨pairs, hpairs, hmost⟩ := finish_history (startRequest i s)
  exact ⟨_, pairs, exec_host_finish hi hb hl, by rw [hpairs, hstart.history], hmost.trans hstart.exchangesLeft_le⟩

/-- A host operation without an exchange leaves the history (R176, R179, R180). -/
theorem exec_host_no_exchange {i : Instr} {s : State} (hi : i.context = .host) (hb : busy s = false)
    (hl : s.stalled = false) (hbound : hostBound s.params i = 0) :
    ∃ t, exec i s = .next t ∧ t.history = s.history := by
  obtain ⟨t, pairs, hexec, hhistory, hlength⟩ := exec_host_exchanges hi hb hl
  rw [hbound, Nat.le_zero, List.length_eq_zero_iff] at hlength
  exact ⟨t, hexec, by rw [hhistory, hlength, List.append_nil]⟩

theorem hostBound_read {p : Params} (hb : 1 ≤ p.retryBudget) : hostBound p .read = 3 * p.retryBudget + 520 := by
  simp only [hostBound, commandBound, receiveBound, budget, blockBytes]; omega

theorem hostBound_write {p : Params} (payload : Block) (hb : 1 ≤ p.retryBudget) :
    hostBound p (.write payload) = 3 * p.retryBudget + 522 := by
  simp only [hostBound, commandBound, transmitBound, budget, blockBytes]; omega

/-- Settles O56, a row of R238 at a time: the procedures by `sendCommand_exchanges`, `receive_exchanges` and
`transmit_exchanges`, INIT by `init_exchanges`, the host operations by `exec_host_exchanges`. -/
theorem exchangeBounds : Obligations.ExchangeBounds := by
  intro s hl hp
  have hb : 1 ≤ s.params.retryBudget := hp.1
  refine ⟨fun c => sendCommand_exchanges c hb, fun length hlength => receive_exchanges (by omega) hb,
    transmit_exchanges hb, fun card => ⟨_, exec_init rfl rfl, init_exchanges hp card⟩, fun hidle => ?_⟩
  have hnot : busy s = false := by rw [busy, hidle]; rfl
  refine ⟨fun sector => exec_host_no_exchange rfl hnot hl rfl, exec_host_no_exchange rfl hnot hl rfl,
    exec_host_no_exchange rfl hnot hl rfl, ?_, fun payload => ?_⟩
  · rw [← hostBound_read hb]
    exact exec_host_exchanges rfl hnot hl
  · rw [← hostBound_write payload hb]
    exact exec_host_exchanges rfl hnot hl

end Sys2Proof.Machine
end

section
/-! The invariant of the engine: it holds leaving reset, and every step keeps it (10_state.md sections 1, 3 and 5). -/

namespace Sys2Proof.Machine

/-- The parameters of this hardware are legal: both budgets are a free number plus 1, the cursor is 0 at Ready. -/
theorem legalParams_config : legalParams Config.params :=
  ⟨Nat.le_add_left 1 _, Nat.le_add_left 1 _, rfl⟩

/-- Settles O49: reset is a fresh engine with the parameters of this hardware, and `inv_fresh` is the invariant of
every fresh engine. -/
theorem invAtReset : Obligations.InvAtReset :=
  ⟨inv_fresh (card := .oracle []) legalParams_config rfl, fun _ _ => inv_fresh⟩

/-- Settles O50: `step_keepsInv`, which goes from the reactions to a byte (`ReactsTo.pointInv`) and the callers
(`ResumesTo.keepsInv`) to the step of a busy engine, and by the acceptance of a request (`StartsTo.keepsInv`) to that
of an IDLE one. -/
theorem stepKeepsInv : Obligations.StepKeepsInv := fun _ _ => step_keepsInv

end Sys2Proof.Machine
end

section
/-! The store of the mock card (95_test_vectors.md section 4). -/

namespace Sys2Proof.Machine

/-- Settles O59: the laws of a sector written (`Memory.writeSector_wf`, `Memory.readSector_writeSector_same`,
`Memory.readSector_writeSector_other`); an exchange that changes the store has collected 513 bytes before its own
(`Mock.answer_store`). -/
theorem mockStoreLaws : Obligations.MockStoreLaws := by
  refine ⟨fun m sector bytes hwf hlength => ⟨Memory.writeSector_wf sector bytes hwf,
    Memory.readSector_writeSector_same sector hwf hlength,
    fun other hother => Memory.readSector_writeSector_other hwf hlength hother⟩, fun m o hnotLast => ?_⟩
  rcases m.answer_store o with hkept | ⟨sector, bytes, hcapture, hlast, -⟩
  · exact hkept
  · exact absurd (Nat.succ.inj hlast) (hnotLast sector bytes hcapture)

end Sys2Proof.Machine
end

section
/-! The seven frames of R82 that the engine emits. -/

namespace Sys2Proof.Machine

/-- A frame by its head, the bytes of its argument and its CRC/filler byte (R71). -/
theorem Command.frame_bytes {index : BitVec 6} {head crc : Byte} (hhead : frameHead index = head)
    (hcrc : crcByte index = crc) (arg : BitVec 32) :
    ∃ b1 b2 b3 b4, be32 arg = [b1, b2, b3, b4] ∧ Command.frame ⟨index, arg⟩ = #v[head, b1, b2, b3, b4, crc] := by
  subst hhead hcrc
  exact ⟨_, _, _, _, rfl, rfl⟩

/-- Settles O5: byte `k` goes out by `Inv.outByte_frame`; the latch holds the frame of the command of the operation in
progress (`Inv.frame`), which `commandOf` gives for each operation. -/
theorem emittedFrames : Obligations.EmittedFrames := by
  intro s hinv hs
  refine ⟨hinv.outByte_frame hs, ?_⟩
  have latched {c : Command} (hc : commandOf s = some c) : s.frame = c.frame := hinv.frame (.inr hs) c hc
  cases htop : s.phase.top with
  | initReset => exact .inl ⟨rfl, (latched (by rw [commandOf, htop])).trans (by decide)⟩
  | initVoltage => exact .inr (.inl ⟨rfl, (latched (by rw [commandOf, htop])).trans (by decide)⟩)
  | initIdleWait =>
    cases hacmd : s.phase.acmd with
    | false =>
      exact .inr (.inr (.inl ⟨rfl, rfl, (latched (by rw [commandOf, htop, hacmd])).trans (by decide)⟩))
    | true =>
      exact .inr (.inr (.inr (.inl ⟨rfl, rfl, (latched (by rw [commandOf, htop, hacmd])).trans (by decide)⟩)))
  | initReadReg =>
    exact .inr (.inr (.inr (.inr (.inl ⟨rfl, (latched (by rw [commandOf, htop])).trans (by decide)⟩))))
  | opRead =>
    obtain ⟨b1, b2, b3, b4, harg, hframe⟩ :=
      Command.frame_bytes (show frameHead 17#6 = 0x51#8 by decide) (show crcByte 17#6 = 0xFF#8 by decide)
        (sectorArgument s)
    exact .inr (.inr (.inr (.inr (.inr (.inl
      ⟨rfl, b1, b2, b3, b4, harg, (latched (by rw [commandOf, htop])).trans hframe⟩)))))
  | opWrite =>
    obtain ⟨b1, b2, b3, b4, harg, hframe⟩ :=
      Command.frame_bytes (show frameHead 24#6 = 0x58#8 by decide) (show crcByte 24#6 = 0xFF#8 by decide)
        (sectorArgument s)
    exact .inr (.inr (.inr (.inr (.inr (.inr
      ⟨rfl, b1, b2, b3, b4, harg, (latched (by rw [commandOf, htop])).trans hframe⟩)))))
  | idle => exact absurd hinv.phase (by simp [Phase.legal, htop, hs])

end Sys2Proof.Machine
end

section
/-! Encodings (30_encoding.md): each format decodes to what was encoded, and what decodes is the encoding of what it
decodes to. -/

namespace Sys2Proof

/-! ## Decoding an encoding -/

/-- The decoder reads a frame by its head, its argument and its CRC/filler byte (R71). -/
theorem decode_commandFrame (index : BitVec 6) (arg : BitVec 32) :
    decode .command (.wire (commandFrame index arg).toList) = decodeCommand (frameHead index) arg (crcByte index) :=
  congrArg (decodeCommand _ · _) (ofBe32_be32 arg)

/-- A test that the byte of a format passes gives the instruction (R83). -/
theorem decode_r1Byte (bits : BitVec 7) : decode .status (.wire [r1Byte bits]) = .ok (.r1 bits) := by
  simp [decode, decodeWire, isR1_r1Byte, r1Byte_bits]

theorem decode_acceptByte (ignored : BitVec 3) :
    decode .dataResponse (.wire [acceptByte ignored]) = .ok (.drespAccept ignored) := by
  simp [decode, decodeWire, isAccepting_acceptByte, acceptByte_bits]

/-- An inbound block of a legal length is its payload and its two CRC bytes (R78, R84). -/
theorem decodeInbound_inboundBytes {payload : List Byte} (crc0 crc1 : Byte)
    (h : legalInboundLength payload.length = true) :
    decodeInbound payload.length (inboundBytes payload crc0 crc1) = .ok (.rxblock payload crc0 crc1) := by
  simp [decodeInbound, inboundBytes, h]

/-- An outbound block is its payload (R79). -/
theorem decodeOutbound_outboundBytes (payload : Block) :
    decodeOutbound (outboundBytes payload) = .ok (.txblock payload) := by
  have htake : (payload.val ++ [Config.crcFiller, Config.crcFiller]).take blockBytes = payload.val :=
    List.take_left' payload.property
  have hdrop : (payload.val ++ [Config.crcFiller, Config.crcFiller]).drop blockBytes =
      [Config.crcFiller, Config.crcFiller] := List.drop_left' payload.property
  simp only [decodeOutbound, outboundBytes, htake, hdrop, payload.property]
  simp

theorem decodeRegister_toList (register : Csd) : decodeRegister register.toList = .ok (.csd register) := by
  rw [decodeRegister, dif_pos register.length_toList]; rfl

/-- Settles O2, format by format: a frame is read by its three fields (`decode_commandFrame`), a lone byte passes its
test, a block and the register keep their lengths, and a request word keeps its code and its sector. -/
theorem decodeOfEncode : Obligations.DecodeOfEncode := by
  intro i hwf
  cases i with
  | cmd0 => exact (decode_commandFrame 0#6 0#32).trans (by decide)
  | cmd8 => exact (decode_commandFrame 8#6 cmd8Argument).trans (by decide)
  | cmd9 => exact (decode_commandFrame 9#6 0#32).trans (by decide)
  | cmd17 sector => exact (decode_commandFrame 17#6 sector).trans (by simp [decodeCommand, frameHead, crcByte])
  | cmd24 sector => exact (decode_commandFrame 24#6 sector).trans (by simp [decodeCommand, frameHead, crcByte])
  | acmd41 => exact (decode_commandFrame 41#6 acmd41Argument).trans (by decide)
  | cmd55 => exact (decode_commandFrame 55#6 0#32).trans (by decide)
  | r1 bits => exact decode_r1Byte bits
  | r7 b0 b1 b2 b3 => rfl
  | start => rfl
  | drespAccept ignored => exact decode_acceptByte ignored
  | ready => rfl
  | rxblock payload crc0 crc1 => exact decodeInbound_inboundBytes crc0 crc1 hwf
  | txblock payload => exact decodeOutbound_outboundBytes payload
  | csd register => exact decodeRegister_toList register
  | seek | read | write | blocksize | blockcount =>
    simp [encode, Instr.context, decode, decodeRequest, requestWord_op, requestWord_sector]
  | init => rfl

/-! ## Encoding what decodes -/

/-- Only an inbound block has a shape that the type leaves open. -/
theorem wf_of_context {i : Instr} (h : ∀ length, i.context ≠ .inbound length) : i.wf = true := by
  cases i with
  | rxblock payload => exact absurd rfl (h payload.length)
  | _ => rfl

/-- A frame that decodes is the frame of its command: each row of R82 fixes the head, the CRC/filler byte and, but for
CMD17 and CMD24, the argument. -/
theorem encode_of_decodeCommand {head crc : Byte} {arg : BitVec 32} {i : Instr}
    (h : decodeCommand head arg crc = .ok i) :
    encode i = .wire (head :: (be32 arg ++ [crc])) ∧ i.context = .command := by
  unfold decodeCommand at h
  repeat' split at h
  all_goals cases h
  all_goals
    next hfields =>
      exact ⟨by simp [hfields, encode, commandFrame_toList, frameHead, crcByte, cmd8Argument, acmd41Argument], rfl⟩

/-- A format of one byte decodes from one byte. -/
theorem singleton_of_polled {c : Context} {bytes : List Byte} {i : Instr}
    (hc : c = .status ∨ c = .token ∨ c = .dataResponse ∨ c = .lineState)
    (h : decode c (.wire bytes) = .ok i) : ∃ b, bytes = [b] := by
  match bytes with
  | [b] => exact ⟨b, rfl⟩
  | [] | _ :: _ :: _ => rcases hc with rfl | rfl | rfl | rfl <;> cases h

theorem encode_of_decodeWire_command {bytes : List Byte} {i : Instr} (h : decode .command (.wire bytes) = .ok i) :
    encode i = .wire bytes ∧ i.context = .command := by
  match bytes with
  | [b0, b1, b2, b3, b4, b5] =>
    obtain ⟨he, hc⟩ := encode_of_decodeCommand h
    rw [be32_ofBe32] at he
    exact ⟨he, hc⟩
  | [] | [_] | [_, _] | [_, _, _] | [_, _, _, _] | [_, _, _, _, _] | _ :: _ :: _ :: _ :: _ :: _ :: _ :: _ => cases h

theorem encode_of_decode_reply {bytes : List Byte} {i : Instr} (h : decode .reply (.wire bytes) = .ok i) :
    encode i = .wire bytes ∧ i.context = .reply := by
  match bytes with
  | [b0, b1, b2, b3] => cases h; exact ⟨rfl, rfl⟩
  | [] | [_] | [_, _] | [_, _, _] | _ :: _ :: _ :: _ :: _ :: _ => cases h

/-- What follows the token of an inbound block, cut after its payload (R78). -/
theorem take_append_crc {rest : List Byte} {length : Nat} (h : rest.length = length + 2) :
    rest.take length ++ [rest.getD length 0, rest.getD (length + 1) 0] = rest := by
  have hcrc : rest.drop length = [rest.getD length 0, rest.getD (length + 1) 0] := by
    rw [List.drop_eq_getElem_cons (by omega), List.drop_eq_getElem_cons (by omega), List.drop_eq_nil_of_le (by omega),
      List.getD_eq_getElem _ _ (by omega), List.getD_eq_getElem _ _ (by omega)]
  rw [← hcrc, List.take_append_drop]

theorem encode_of_decodeInbound {length : Nat} {bytes : List Byte} {i : Instr}
    (h : decodeInbound length bytes = .ok i) :
    encode i = .wire bytes ∧ i.context = .inbound length ∧ i.wf = true := by
  match bytes with
  | [] => cases h
  | token :: rest =>
    simp only [decodeInbound] at h
    split_ifs at h with htoken hlength
    cases h
    obtain ⟨hlegal, hrest⟩ := not_or.mp hlength
    have htake : (rest.take length).length = length := by rw [List.length_take]; omega
    refine ⟨?_, by simp [Instr.context, htake], by simpa [Instr.wf, htake] using hlegal⟩
    rw [encode, inboundBytes, take_append_crc (not_not.mp hrest), not_not.mp htoken]

theorem encode_of_decodeOutbound {bytes : List Byte} {i : Instr} (h : decodeOutbound bytes = .ok i) :
    encode i = .wire bytes ∧ i.context = .outbound := by
  match bytes with
  | [] => cases h
  | token :: rest =>
    simp only [decodeOutbound] at h
    split_ifs at h with hlength hfields
    cases h
    obtain ⟨htoken, hfillers⟩ := hfields
    exact ⟨by rw [encode, outboundBytes, ← hfillers, List.take_append_drop, htoken], rfl⟩

theorem encode_of_decodeRegister {bytes : List Byte} {i : Instr} (h : decodeRegister bytes = .ok i) :
    encode i = .wire bytes ∧ i.context = .register := by
  unfold decodeRegister at h
  split_ifs at h
  cases h
  exact ⟨rfl, rfl⟩

/-- Settles O3, context by context. -/
theorem encodeOfDecode : Obligations.EncodeOfDecode := by
  intro c bytes i h
  have polled (hc : c = .status ∨ c = .token ∨ c = .dataResponse ∨ c = .lineState) :
      encode i = .wire bytes ∧ i.context = c := by
    obtain ⟨b, rfl⟩ := singleton_of_polled hc h
    exact Machine.encode_of_polled hc h
  have wellFormed (hc : ∀ length, c ≠ .inbound length) (he : encode i = .wire bytes ∧ i.context = c) :
      encode i = .wire bytes ∧ i.context = c ∧ i.wf = true :=
    ⟨he.1, he.2, wf_of_context fun length => he.2 ▸ hc length⟩
  cases c with
  | command => exact wellFormed nofun (encode_of_decodeWire_command h)
  | status | token | dataResponse | lineState => exact wellFormed nofun (polled (by simp))
  | reply => exact wellFormed nofun (encode_of_decode_reply h)
  | inbound length => exact encode_of_decodeInbound h
  | outbound => exact wellFormed nofun (encode_of_decodeOutbound h)
  | register => exact wellFormed nofun (encode_of_decodeRegister h)
  | host | reset => cases h

/-! ## Words of the opcode table -/

/-- Settles O1: each word is cut into its bytes, or its request, and decoded. -/
theorem tableWordsDecode : Obligations.TableWordsDecode :=
  ⟨by decide, by decide, by decide, by decide, by decide, by decide, by decide, by decide, by decide, by decide⟩

end Sys2Proof
end

section
/-! What the procedures and the seven commands leave unchanged, against any card (41_command.md sections 1 and 2). -/

namespace Sys2Proof.Machine

/-! ## What no procedure touches -/

/-- What stays from `s` to `t` while an operation runs its procedures; the history goes on. -/
structure RunFrame (s t : State) : Prop where
  dev : t.dev = s.dev
  csd : t.csd = s.csd
  it : t.it = s.it
  params : t.params = s.params
  stalled : t.stalled = s.stalled
  request : t.request = s.request
  script : t.script = s.script
  responses : t.responses = s.responses
  history : s.history <+: t.history

theorem RunFrame.refl (s : State) : RunFrame s s := ⟨rfl, rfl, rfl, rfl, rfl, rfl, rfl, rfl, ⟨[], List.append_nil _⟩⟩

theorem RunFrame.trans {s t u : State} (h : RunFrame s t) (g : RunFrame t u) : RunFrame s u :=
  ⟨g.dev.trans h.dev, g.csd.trans h.csd, g.it.trans h.it, g.params.trans h.params, g.stalled.trans h.stalled,
    g.request.trans h.request, g.script.trans h.script, g.responses.trans h.responses, h.history.trans g.history⟩

/-- The payload fields are no part of it. -/
theorem RunFrame.withPayload {s t : State} (h : RunFrame s t) (rxData : List Byte) (txData : Option Block) :
    RunFrame s { t with rxData := rxData, txData := txData } :=
  ⟨h.dev, h.csd, h.it, h.params, h.stalled, h.request, h.script, h.responses, h.history⟩

/-- A procedure keeps it, wherever it begins. -/
theorem finishProcedure_runFrame (length : Nat) (s : State) (phase : Phase) (frame : Vector Byte 6) (n k : Nat) :
    RunFrame s (finishProcedure length { s with phase := phase, frame := frame, n := n, k := k }) :=
  have h := finishProcedure_frame length { s with phase := phase, frame := frame, n := n, k := k }
  have ⟨added, hadded, _⟩ := finishProcedure_history length { s with phase := phase, frame := frame, n := n, k := k }
  ⟨h.dev, h.csd, h.it, h.params, h.stalled, h.request, h.script, h.responses, added, hadded.symm⟩

theorem sendCommand_runFrame (c : Command) (s : State) : RunFrame s (sendCommand c s) :=
  finishProcedure_runFrame blockBytes s _ c.frame 0 0

/-- A command that an operation begins with. -/
theorem commandSent_runFrame (c : Command) (top : TopPhase) (acmd : Bool) (s : State) :
    RunFrame s (sendCommand c (startCommand top acmd s)) :=
  finishProcedure_runFrame blockBytes s _ c.frame 0 0

theorem readReply_runFrame (s : State) : RunFrame s (readReply s) :=
  finishProcedure_runFrame blockBytes s _ s.frame s.n 0

theorem receive_runFrame (length : Nat) (s : State) : RunFrame s (receive length s) :=
  finishProcedure_runFrame length s _ s.frame 0 s.k

theorem transmit_runFrame (s : State) : RunFrame s (transmit s) :=
  finishProcedure_runFrame blockBytes s _ s.frame s.n s.k

theorem supplyPayload_runFrame (s : State) : RunFrame s (supplyPayload s) := by constructor <;> simp

/-! ## Latches that belong to other procedures -/

/-- A field that no exchange inside these control points writes is left by a procedure that stays inside them. -/
theorem finishProcedure_keeps {α : Type} {inside : SubPhase → Prop} {field : State → α} (length : Nat)
    (unrecorded : ∀ sent received s, field (record sent received (cardMoves s)) = field s)
    (kept : ∀ {i u v}, inside u.phase.sub → ReactsTo length i u v →
      field v = field u ∧ (v.phase.sub = .none ∨ inside v.phase.sub)) {s : State}
    (hs : inside s.phase.sub) : field (finishProcedure length s) = field s := by
  refine finishProcedure_induction length
    (P := fun s t => s.phase.sub = .none ∨ inside s.phase.sub → field t = field s) (fun _ _ _ => rfl)
    (fun s t hn ih hin => ?_) s (.inr hs)
  obtain ⟨hfield, hstays⟩ := kept (u := record (outByte (cardMoves s)) (cardByte s) (cardMoves s))
    (hin.resolve_left hn) (procedureTick_reactsTo length hn)
  exact (ih hstays).trans (hfield.trans (unrecorded _ _ s))

/-- The data phases leave the reply latch. -/
theorem ReactsTo.data_r7 {length : Nat} {i : Byte} {u v : State} (hs : u.phase.sub.inData = true)
    (h : ReactsTo length i u v) : v.r7 = u.r7 ∧ (v.phase.sub = .none ∨ v.phase.sub.inData = true) := by
  cases h <;> simp_all [SubPhase.inData]

/-- The reply bytes leave the inbound payload and the framer's result. -/
theorem ReactsTo.reply_latches {length : Nat} {i : Byte} {u v : State} (hs : u.phase.sub = .r7Bytes)
    (h : ReactsTo length i u v) :
    (v.rxData, v.framerResult) = (u.rxData, u.framerResult) ∧ (v.phase.sub = .none ∨ v.phase.sub = .r7Bytes) := by
  cases h <;> simp_all

/-- An outbound block leaves the inbound payload. -/
theorem ReactsTo.transmit_rxData {length : Nat} {i : Byte} {u v : State} (hs : u.phase.sub.inTransmit)
    (h : ReactsTo length i u v) : v.rxData = u.rxData ∧ (v.phase.sub = .none ∨ v.phase.sub.inTransmit) := by
  cases h <;> simp_all [SubPhase.inTransmit]

theorem receive_r7 (length : Nat) (s : State) : (receive length s).r7 = s.r7 :=
  finishProcedure_keeps (inside := fun sub => sub.inData = true) length (fun _ _ _ => rfl) ReactsTo.data_r7
    (s := startReceive s) rfl

theorem transmit_r7 (s : State) : (transmit s).r7 = s.r7 :=
  finishProcedure_keeps (inside := fun sub => sub.inData = true) blockBytes (fun _ _ _ => rfl) ReactsTo.data_r7
    (s := goto .txToken s) rfl

theorem transmit_rxData (s : State) : (transmit s).rxData = s.rxData :=
  finishProcedure_keeps (inside := SubPhase.inTransmit) blockBytes (fun _ _ _ => rfl) ReactsTo.transmit_rxData
    (s := goto .txToken s) (.inl rfl)

theorem readReply_latches (s : State) : (readReply s).rxData = s.rxData ∧ (readReply s).framerResult = s.framerResult :=
  Prod.mk.inj (finishProcedure_keeps (inside := (· = .r7Bytes)) (field := fun s => (s.rxData, s.framerResult))
    blockBytes (fun _ _ _ => rfl) ReactsTo.reply_latches (s := startRun .r7Bytes s) rfl)

/-! ## The commands -/

/-- What a command row leaves alone, whichever it is: `RunFrame`, the operation in progress and its payload. -/
structure CommandKept (s t : State) : Prop extends RunFrame s t where
  txData : t.txData = s.txData
  top : t.phase.top = s.phase.top
  acmd : t.phase.acmd = s.phase.acmd

theorem CommandKept.trans {s t u : State} (h : CommandKept s t) (g : CommandKept t u) : CommandKept s u :=
  ⟨h.toRunFrame.trans g.toRunFrame, g.txData.trans h.txData, g.top.trans h.top, g.acmd.trans h.acmd⟩

theorem sendCommand_commandKept (c : Command) (s : State) : CommandKept s (sendCommand c s) :=
  ⟨sendCommand_runFrame c s, sendCommand_txData c s, sendCommand_top c s, sendCommand_acmd c s⟩

theorem readReply_commandKept (s : State) : CommandKept s (readReply s) :=
  have h := finishProcedure_frame blockBytes (startRun .r7Bytes s)
  ⟨readReply_runFrame s, h.txData, h.top, h.acmd⟩

theorem receive_commandKept (length : Nat) (s : State) : CommandKept s (receive length s) :=
  have h := receive_procedureFrame length s
  ⟨receive_runFrame length s, h.txData, h.top, h.acmd⟩

theorem CommandKept.dropUnclaimed {s t : State} (h : CommandKept s t) : CommandKept s (dropUnclaimed s t) := by
  cases hb : busy s with
  | true => rw [dropUnclaimed_busy t hb]; exact h
  | false => rw [dropUnclaimed_idle t hb]; exact ⟨h.withPayload _ _, rfl, h.top, h.acmd⟩

/-- CMD24 transmits a payload that is supplied, and puts the payload of the operation in progress back. -/
theorem transmit_supplied_commandKept (s : State) :
    CommandKept s { transmit (supplyPayload s) with txData := s.txData } :=
  have h := transmit_procedureFrame (supplyPayload s)
  ⟨((supplyPayload_runFrame s).trans (transmit_runFrame _)).withPayload _ _, rfl,
    h.top.trans (by simp), h.acmd.trans (by simp)⟩

/-- What the row of a command leaves alone, with the latches that only some rows name. -/
structure RowKept (i : Instr) (s t : State) : Prop extends CommandKept s t where
  r7 : i ≠ .cmd8 → t.r7 = s.r7
  rxData : (∀ sector, i ≠ .cmd17 sector) → i ≠ .cmd9 → t.rxData = s.rxData
  rxData_idle : busy s = false → t.rxData = s.rxData
  framerResult : i = .cmd0 ∨ i = .cmd8 ∨ i = .cmd55 ∨ i = .acmd41 → t.framerResult = s.framerResult

/-- The part that every row begins with. -/
theorem sendCommand_rowKept (i : Instr) (c : Command) (s : State) : RowKept i s (sendCommand c s) :=
  have ⟨hr7, hrx, hframer⟩ := sendCommand_latches c s
  ⟨sendCommand_commandKept c s, fun _ => hr7, fun _ _ => hrx, fun _ => hrx, fun _ => hframer⟩

theorem exec_cmd8_rowKept {s : State} (hl : s.stalled = false) : ∃ t, exec .cmd8 s = .next t ∧ RowKept .cmd8 s t := by
  refine ⟨_, exec_cmd8 hl, ?_⟩
  have hsent := sendCommand_rowKept .cmd8 ⟨8#6, cmd8Argument⟩ s
  split
  · obtain ⟨hrx, hframer⟩ := readReply_latches (sendCommand ⟨8#6, cmd8Argument⟩ s)
    exact ⟨hsent.toCommandKept.trans (readReply_commandKept _), fun h => absurd rfl h,
      fun h17 h9 => hrx.trans (hsent.rxData h17 h9), fun hb => hrx.trans (hsent.rxData_idle hb),
      fun hi => hframer.trans (hsent.framerResult hi)⟩
  · exact hsent

/-- CMD9 and CMD17. -/
theorem readRow_rowKept {i : Instr} (c : Command) (length : Nat) (s : State)
    (hi : i = .cmd9 ∨ ∃ sector, i = .cmd17 sector) : RowKept i s (readRow c length s) := by
  have hsent := sendCommand_rowKept i c s
  by_cases hr1 : (sendCommand c s).r1 = .answer 0#7
  · have hrow : readRow c length s = dropUnclaimed s (receive length (sendCommand c s)) := by
      rw [readRow, if_pos ((isZero_iff _).mpr hr1)]
    rw [hrow]
    refine ⟨(hsent.toCommandKept.trans (receive_commandKept length _)).dropUnclaimed, fun h8 => ?_, fun h17 h9 => ?_,
      fun hb => by rw [dropUnclaimed_idle _ hb], ?_⟩
    · rw [dropUnclaimed_r7, receive_r7, hsent.r7 h8]
    · rcases hi with rfl | ⟨sector, rfl⟩
      · exact absurd rfl h9
      · exact absurd rfl (h17 sector)
    · rcases hi with rfl | ⟨sector, rfl⟩ <;> rintro (h | h | h | h) <;> cases h
  · rw [readRow_stops length hr1]; exact hsent

theorem exec_cmd24_rowKept (sector : BitVec 32) {s : State} (hl : s.stalled = false) :
    ∃ t, exec (.cmd24 sector) s = .next t ∧ RowKept (.cmd24 sector) s t := by
  have hsent := sendCommand_rowKept (.cmd24 sector) ⟨24#6, sector⟩ s
  refine ⟨_, exec_cmd24 sector hl, ?_⟩
  split
  · have hrx : (transmit (supplyPayload (sendCommand ⟨24#6, sector⟩ s))).rxData =
        (sendCommand ⟨24#6, sector⟩ s).rxData := by rw [transmit_rxData, supplyPayload_rxData]
    have hr7 : (transmit (supplyPayload (sendCommand ⟨24#6, sector⟩ s))).r7 =
        (sendCommand ⟨24#6, sector⟩ s).r7 := by rw [transmit_r7, supplyPayload_r7]
    rw [← hsent.txData]
    exact ⟨hsent.toCommandKept.trans (transmit_supplied_commandKept _), fun h8 => hr7.trans (hsent.r7 h8),
      fun h17 h9 => hrx.trans (hsent.rxData h17 h9), fun hb => hrx.trans (hsent.rxData_idle hb),
      by rintro (h | h | h | h) <;> cases h⟩
  · exact hsent

/-- Each row of a command completes, exchanges completing, and keeps what `RowKept` lists. -/
theorem exec_command_rowKept {i : Instr} {s : State} (hi : i.context = .command) (hl : s.stalled = false) :
    ∃ t, exec i s = .next t ∧ RowKept i s t := by
  cases i with
  | cmd0 => exact ⟨_, afterExchanges_live _ hl, sendCommand_rowKept _ ⟨0#6, 0#32⟩ s⟩
  | cmd55 => exact ⟨_, afterExchanges_live _ hl, sendCommand_rowKept _ ⟨55#6, 0#32⟩ s⟩
  | acmd41 => exact ⟨_, afterExchanges_live _ hl, sendCommand_rowKept _ ⟨41#6, acmd41Argument⟩ s⟩
  | cmd8 => exact exec_cmd8_rowKept hl
  | cmd9 => exact ⟨_, exec_cmd9 hl, readRow_rowKept _ 16 s (.inl rfl)⟩
  | cmd17 sector => exact ⟨_, exec_cmd17 sector hl, readRow_rowKept _ blockBytes s (.inr ⟨sector, rfl⟩)⟩
  | cmd24 sector => exact exec_cmd24_rowKept sector hl
  | _ => cases hi

/-- Settles O19 by `exec_command_rowKept`: every row is a `sendCommand`, and the three with more behind it go on with one
procedure that is not the owner of the latches left. -/
theorem commandsFrame : Obligations.CommandsFrame := by
  intro i s hi hl
  obtain ⟨t, hexec, h⟩ := exec_command_rowKept hi hl
  exact ⟨t, hexec, h.dev, h.csd, h.it, h.params, h.txData, h.top, h.acmd, h.stalled, h.request, h.script, h.responses,
    h.history, h.r7, h.rxData, h.rxData_idle, h.framerResult⟩

end Sys2Proof.Machine
end

section
/-! What the host operations leave unchanged, against any card (45_block_store.md, 10_state.md sections 1 to 4). -/

namespace Sys2Proof.Machine

/-! ## READ and WRITE, run to their end -/

/-- How a READ or a WRITE that has begun ends: with IO or with the cursor moved by one, and no payload. -/
inductive BlockMoves (s : State) : State → Prop where
  | failed {u : State} (kept : RunFrame s u) (r7 : u.r7 = s.r7) : BlockMoves s (fail .io (dropPayload u))
  | moved {u : State} (r : Response) (kept : RunFrame s u) (r7 : u.r7 = s.r7) :
      BlockMoves s (respond r (dropPayload (advancePosition u)))

theorem finish_opRead_moves (s : State) : BlockMoves s (finish (startCommand .opRead false s)) := by
  have hsent : RunFrame s (readSent s) := commandSent_runFrame _ _ _ s
  have hblock := hsent.trans (receive_runFrame blockBytes (readSent s))
  have hr7 : (readSent s).r7 = s.r7 := (sendCommand_latches _ _).1
  have hblockR7 := (receive_r7 blockBytes (readSent s)).trans hr7
  rw [finish_opRead]
  split_ifs
  · exact .failed hsent hr7
  · exact .failed hblock hblockR7
  · exact .moved _ hblock hblockR7

theorem finish_opWrite_moves (payload : Block) (s : State) :
    BlockMoves s (finish (startCommand .opWrite false { s with txData := some payload })) := by
  have hsent : RunFrame s (writeSent payload s) :=
    ((RunFrame.refl s).withPayload s.rxData (some payload)).trans (commandSent_runFrame _ _ _ _)
  have hblock := hsent.trans (transmit_runFrame (writeSent payload s))
  have hr7 : (writeSent payload s).r7 = s.r7 := (sendCommand_latches _ _).1
  have hblockR7 := (transmit_r7 (writeSent payload s)).trans hr7
  rw [finish_opWrite]
  split_ifs
  · exact .failed hsent hr7
  · exact .failed hblock hblockR7
  · exact .moved _ hblock hblockR7

/-! ## Any host operation -/

/-- READ and WRITE, the operations that move a block. -/
def MovesBlock (i : Instr) : Prop := i = .read ∨ ∃ payload, i = .write payload

/-- What a host operation leaves alone, whichever it is and however it ends. -/
structure HostKept (i : Instr) (s t : State) : Prop where
  dev : t.dev = { s.dev with position := t.dev.position }
  position : t.dev.position = s.dev.position ∨ MovesBlock i ∧ t.dev.position = s.dev.position + 1#33 ∨
    ∃ sector, i = .seek sector ∧ t.dev.position = sector.zeroExtend 33
  csd : t.csd = s.csd
  r7 : t.r7 = s.r7
  it : t.it = s.it
  params : t.params = s.params
  stalled : t.stalled = s.stalled
  request : t.request = s.request
  script : t.script = s.script
  history : s.history <+: t.history
  payload : (t.rxData = s.rxData ∧ t.txData = s.txData ∧ t.history = s.history) ∨
    (MovesBlock i ∧ t.rxData = [] ∧ t.txData = none)
  bus : ¬ MovesBlock i → t.card = s.card ∧ t.history = s.history ∧ t.frame = s.frame ∧ t.r1 = s.r1 ∧
    t.framerResult = s.framerResult ∧ t.n = s.n ∧ t.k = s.k

/-- An operation without an exchange: it answers, and of the engine only the cursor can be another, that of a SEEK. -/
theorem hostKept_of_answered (i : Instr) (s : State) (r : Response) (draws : Nat) {position : Sector}
    (h : position = s.dev.position ∨ ∃ sector, i = .seek sector ∧ position = sector.zeroExtend 33) :
    HostKept i s (respond r { s with dev := { s.dev with position := position }, draws := draws }) :=
  ⟨rfl, h.imp_right .inr, rfl, rfl, rfl, rfl, rfl, rfl, rfl, ⟨[], List.append_nil _⟩, .inl ⟨rfl, rfl, rfl⟩,
    fun _ => ⟨rfl, rfl, rfl, rfl, rfl, rfl, rfl⟩⟩

/-- An operation that has moved its block, or failed to. -/
theorem BlockMoves.hostKept {i : Instr} {s t : State} (hi : MovesBlock i) (h : BlockMoves s t) : HostKept i s t := by
  cases h with
  | failed kept r7 =>
    exact ⟨by simp [kept.dev], .inl (congrArg _ kept.dev), kept.csd, r7, kept.it, kept.params,
      kept.stalled, kept.request, kept.script, kept.history, .inr ⟨hi, rfl, rfl⟩, fun hn => absurd hi hn⟩
  | @moved u r kept r7 =>
    have hcursor : u.dev.position + 1#33 = s.dev.position + 1#33 := by rw [kept.dev]
    exact ⟨by simp [advancePosition, kept.dev], .inr (.inl ⟨hi, hcursor⟩), kept.csd, r7, kept.it, kept.params,
      kept.stalled, kept.request, kept.script, kept.history, .inr ⟨hi, rfl, rfl⟩, fun hn => absurd hi hn⟩

/-- Whatever its acceptance starts, a host operation run to its end keeps what `HostKept` lists. -/
theorem StartsTo.finish_hostKept {i : Instr} {s t : State} (h : StartsTo s i t) : HostKept i s (finish t) := by
  cases h with
  | readBegins => exact (finish_opRead_moves s).hostKept (.inl rfl)
  | writeBegins payload => exact (finish_opWrite_moves payload s).hostKept (.inr ⟨payload, rfl⟩)
  | seekUnready | readUnready | writeUnready | seekBeyond | readAtEnd | writeAtEnd | writeDisabled =>
    rw [finish_fail]; exact hostKept_of_answered _ s _ s.draws (.inl rfl)
  | seekMoves sector =>
    rw [finish_respond]; exact hostKept_of_answered _ s _ s.draws (.inr ⟨sector, rfl, rfl⟩)
  | blockSizeKnown | blockCountKnown => rw [finish_respond]; exact hostKept_of_answered _ s _ s.draws (.inl rfl)
  | blockSizeFree | blockCountFree => rw [finish_respond]; exact hostKept_of_answered _ s _ (s.draws + 1) (.inl rfl)

/-- Settles O43: a host operation that gives a next state has run to its end (`exec_host_next`), and
`StartsTo.finish_hostKept` says what is kept, whatever its acceptance started. -/
theorem hostOperationsFrame : Obligations.HostOperationsFrame := by
  intro i s t hi hexec
  obtain ⟨-, rfl⟩ := exec_host_next hi hexec
  have h := (startRequest_startsTo s hi).finish_hostKept
  exact ⟨h.dev, h.position, h.csd, h.r7, h.it, h.params, h.stalled, h.request, h.script, h.history, h.payload,
    fun hread hwrite => h.bus (by rintro (h | ⟨payload, h⟩); exacts [hread h, hwrite payload h])⟩

end Sys2Proof.Machine
end

section
/-! The family of 42_init.md, a well-behaved card: INIT step by step against the answers that R116 to R120 expect, from
reset to Ready. -/

namespace Sys2Proof.Machine

/-! ## Where INIT stands -/

/-- INIT between two of its procedures: the bytes that the card has still to answer, the exchanges made at least, and
what its steps have written. -/
structure InitStands (p : Params) (answers : List Byte) (made : Nat) (dev : DeviceState) (r7 : Vector Byte 4) (it : Nat)
    (s : State) : Prop where
  params : s.params = p
  card : s.card = .oracle answers
  history : made ≤ s.history.length
  dev : s.dev = dev
  r7 : s.r7 = r7
  it : s.it = it
  responses : s.responses = []

section
variable {p : Params} {made : Nat} {dev : DeviceState} {r7 : Vector Byte 4} {it : Nat} {s : State}
  {ready frameIn r1In rest : List Byte}

/-- The command of a step is answered: its result is latched, at least 8 exchanges more have been made (R110), and the
caller goes on. -/
theorem InitStands.command {r : R1Result} (h : InitStands p (ready ++ (frameIn ++ (r1In ++ rest))) made dev r7 it s)
    (heard : CommandHeard p ready frameIn r1In r) (top : TopPhase) (acmd : Bool) (c : Command) (htop : top ≠ .idle)
    (hc : commandOf (startCommand top acmd s) = some c) :
    ∃ u, finish (startCommand top acmd s) = finish (afterCommand u) ∧ u.phase.top = top ∧ u.phase.acmd = acmd ∧
      u.r1 = r ∧ InitStands p rest (made + 8) dev r7 it u := by
  have heard' : CommandHeard (startCommand top acmd s).params ready frameIn r1In r := by
    rw [startCommand_params, h.params]; exact heard
  obtain ⟨n, k, hends⟩ := sendCommand_ends c heard' (rest := rest) (by simpa using h.card)
  obtain ⟨pairs, hpairs, hleast, -⟩ := sendCommand_exchanges c heard'.budget
  have hlength : made + 8 ≤ (sendCommand c (startCommand top acmd s)).history.length := by
    rw [hpairs, List.length_append]; exact Nat.add_le_add h.history hleast
  refine ⟨_, finish_startCommand top acmd s c htop hc, sendCommand_top _ _, sendCommand_acmd _ _, ?_, ?_⟩
  · rw [hends]; rfl
  · rw [hends] at hlength ⊢
    exact ⟨h.params, rfl, hlength, h.dev, h.r7, h.it, h.responses⟩

/-- Step 1 passed (R131). -/
theorem InitStands.reset (h : InitStands p (ready ++ (frameIn ++ (r1In ++ rest))) made dev r7 it s)
    (heard : CommandHeard p ready frameIn r1In (.answer 1#7)) :
    ∃ u, finish (startCommand .initReset false s) = finish (startCommand .initVoltage false u) ∧
      InitStands p rest (made + 8) { dev with present := true } r7 it u := by
  obtain ⟨u, hfinish, htop, -, hr1, hu⟩ := h.command heard .initReset false ⟨0#6, 0#32⟩ nofun rfl
  refine ⟨{ u with dev := { u.dev with present := true } }, ?_,
    hu.params, hu.card, hu.history, by rw [hu.dev], hu.r7, hu.it, hu.responses⟩
  rw [hfinish, afterCommand_initReset htop, if_pos hr1]

/-- Step 2 passed, its four reply bytes included (R132). -/
theorem InitStands.voltage {b0 b1 b2 b3 : Byte}
    (h : InitStands p (ready ++ (frameIn ++ (r1In ++ ([b0, b1, b2, b3] ++ rest)))) made dev r7 it s)
    (heard : CommandHeard p ready frameIn r1In (.answer 1#7)) (hb2 : b2.toNat % 16 = 1) (hb3 : b3 = 0xA5#8) :
    ∃ u, finish (startCommand .initVoltage false s) = finish (startCommand .initIdleWait false u) ∧
      InitStands p rest (made + 12) dev #v[b0, b1, b2, b3] 0 u := by
  obtain ⟨u, hfinish, htop, -, hr1, hu⟩ := h.command heard .initVoltage false ⟨8#6, cmd8Argument⟩ nofun rfl
  have hreply := readReply_bytes u b0 b1 b2 b3 rest hu.card
  have haccepted : replyAccepted (readReply u).r7 = true := by
    rw [hreply]; exact (replyAccepted_iff b0 b1 b2 b3).mpr ⟨hb2, hb3⟩
  refine ⟨{ readReply u with it := 0 }, ?_, ?_⟩
  · rw [hfinish, afterCommand_initVoltage htop, if_pos hr1, finish_startReply u htop, afterReply, if_pos haccepted]
  · rw [hreply]
    refine ⟨hu.params, rfl, ?_, hu.dev, rfl, rfl, hu.responses⟩
    rw [List.length_append]
    exact Nat.add_le_add_right hu.history 4

/-- CMD55 answered, whatever its bits (R133). -/
theorem InitStands.prefixed {bits : BitVec 7} (h : InitStands p (ready ++ (frameIn ++ (r1In ++ rest))) made dev r7 it s)
    (heard : CommandHeard p ready frameIn r1In (.answer bits)) :
    ∃ u, finish (startCommand .initIdleWait false s) = finish (startCommand .initIdleWait true u) ∧
      InitStands p rest (made + 8) dev r7 it u := by
  obtain ⟨u, hfinish, htop, hacmd, hr1, hu⟩ := h.command heard .initIdleWait false ⟨55#6, 0#32⟩ nofun rfl
  exact ⟨u, by rw [hfinish, afterCommand_prefix htop hacmd, if_neg (by rw [hr1]; nofun)], hu⟩

/-- ACMD41 answered by a card that is idle no longer: IdleWait is over (R133). -/
theorem InitStands.waited (h : InitStands p (ready ++ (frameIn ++ (r1In ++ rest))) made dev r7 it s)
    (heard : CommandHeard p ready frameIn r1In (.answer 0#7)) :
    ∃ u, finish (startCommand .initIdleWait true s) = finish (startCommand .initReadReg false u) ∧
      InitStands p rest (made + 8) dev r7 (it + 1) u := by
  obtain ⟨u, hfinish, htop, hacmd, hr1, hu⟩ := h.command heard .initIdleWait true ⟨41#6, acmd41Argument⟩ nofun rfl
  refine ⟨{ u with it := u.it + 1 }, ?_, hu.params, hu.card, hu.history, hu.dev, hu.r7, by rw [hu.it], hu.responses⟩
  rw [hfinish, afterCommand_idleWait htop hacmd, if_neg (by rw [hr1]; nofun), if_pos (by rw [hr1]; decide)]

/-- Steps 4 and 5 passed: the register is received, latched and decoded (R134 to R136). -/
theorem InitStands.register {tokenIn : List Byte} {crc0 crc1 : Byte} {register : Csd}
    (h : InitStands p
      (ready ++ (frameIn ++ (r1In ++ (tokenIn ++ (register.toList ++ ([crc0, crc1] ++ rest)))))) made dev r7 it s)
    (heard : CommandHeard p ready frameIn r1In (.answer 0#7)) (htoken : PollHit p.retryBudget isStartToken tokenIn) :
    ∃ u, finish (startCommand .initReadReg false s) = registerDecoded register u ∧
      InitStands p rest (made + 27) dev r7 it u := by
  obtain ⟨gap, hit, rfl, hgap, hhit, hlast⟩ := htoken
  obtain rfl : hit = Config.startToken := by simpa [isStartToken] using hhit
  obtain ⟨u, hfinish, htop, -, hr1, hu⟩ := h.command heard .initReadReg false ⟨9#6, 0#32⟩ nofun rfl
  have hblock := receive_block 16 u gap register.toList rest crc0 crc1 (by rw [hu.card]; simp) hgap
    (by rw [hu.params]; simpa using hlast) register.length_toList
    (List.ne_nil_of_length_pos (by rw [register.length_toList]; decide))
  have hdecoded : afterReceive (receive 16 u) = registerDecoded register (receive 16 u) := by
    rw [hblock]; exact afterReceive_register htop rfl rfl
  refine ⟨receive 16 u, ?_, ?_⟩
  · rw [hfinish, afterCommand_initReadReg htop, if_pos hr1, finish_startReceive u (by rw [busy, htop]; rfl), htop,
      show rxLength .initReadReg = 16 from rfl, hdecoded]
    exact finish_idle rfl
  · rw [hblock]
    refine ⟨hu.params, rfl, ?_, hu.dev, hu.r7, hu.it, hu.responses⟩
    have hmade := hu.history
    simp only [received, List.length_append, List.length_map, List.length_cons, List.length_nil, register.length_toList]
    omega

/-- All the steps of INIT passed, with one IdleWait iteration (R130). -/
theorem InitStands.becomesReady {y0 y8 y55 y41 y9 f0 f8 f55 f41 f9 a0 a8 a55 a41 a9 tokenIn : List Byte}
    {b0 b1 b2 b3 crc0 crc1 : Byte} {bits : BitVec 7} {register : Csd}
    (h : InitStands p (y0 ++ (f0 ++ (a0 ++ (y8 ++ (f8 ++ (a8 ++ ([b0, b1, b2, b3] ++
      (y55 ++ (f55 ++ (a55 ++ (y41 ++ (f41 ++ (a41 ++ (y9 ++ (f9 ++ (a9 ++ (tokenIn ++
      (register.toList ++ ([crc0, crc1] ++ rest)))))))))))))))))))
      made dev r7 it s)
    (h0 : CommandHeard p y0 f0 a0 (.answer 1#7)) (h8 : CommandHeard p y8 f8 a8 (.answer 1#7))
    (hb2 : b2.toNat % 16 = 1) (hb3 : b3 = 0xA5#8) (h55 : CommandHeard p y55 f55 a55 (.answer bits))
    (h41 : CommandHeard p y41 f41 a41 (.answer 0#7)) (h9 : CommandHeard p y9 f9 a9 (.answer 0#7))
    (htoken : PollHit p.retryBudget isStartToken tokenIn) :
    ∃ u, finish (startCommand .initReset false s) = registerDecoded register u ∧
      InitStands p rest (made + 63) { dev with present := true } #v[b0, b1, b2, b3] 1 u := by
  obtain ⟨u0, e0, s0⟩ := h.reset h0
  obtain ⟨u8, e8, s8⟩ := s0.voltage h8 hb2 hb3
  obtain ⟨u55, e55, s55⟩ := s8.prefixed h55
  obtain ⟨u41, e41, s41⟩ := s55.waited h41
  obtain ⟨u9, e9, s9⟩ := s41.register h9 htoken
  exact ⟨u9, by rw [e0, e8, e55, e41, e9], s9⟩

end

/-- The engine leaving reset, against a card that answers these bytes. -/
theorem initStands_fresh (p : Params) (answers : List Byte) :
    InitStands p answers 0 State.reset.dev State.reset.r7 0 (State.fresh p (.oracle answers)) :=
  ⟨rfl, rfl, Nat.le_refl 0, rfl, rfl, rfl, rfl⟩

/-- Settles O48: from reset (`initStands_fresh`) through Reset, VoltageCheck, CMD55 and ACMD41 of one IdleWait iteration,
and ReadRegister, each with the answers that it expects (`InitStands.becomesReady`). -/
theorem initReachesReady : Obligations.InitReachesReady := by
  intro p y0 y8 y55 y41 y9 f0 f8 f55 f41 f9 a0 a8 a55 a41 a9 tokenIn rest b0 b1 b2 b3 crc0 crc1 bits register hp
    hy0 hy8 hy55 hy41 hy9 hf0 hf8 hf55 hf41 hf9 ha0 ha8 ha55 ha41 ha9 hb2 hb3 htoken hversion
  have hb : 1 ≤ p.retryBudget := hp.1
  obtain ⟨u, hfinish, h⟩ := (initStands_fresh p _).becomesReady (rest := rest) (crc0 := crc0) (crc1 := crc1)
    (register := register) (b0 := b0) (b1 := b1) ⟨hb, hy0, hf0, .answer ha0⟩ ⟨hb, hy8, hf8, .answer ha8⟩ hb2 hb3
    ⟨hb, hy55, hf55, .answer ha55⟩ ⟨hb, hy41, hf41, .answer ha41⟩ ⟨hb, hy9, hf9, .answer ha9⟩ htoken
  have hready : deviceDecoded u.params register u.dev =
      { present := true, initialized := true, initResult := .ready, blockSize := 512#33
        blockCount := csdCount p register, position := 0#33 } := by
    rw [h.params, h.dev, deviceDecoded, if_pos hversion, hp.2.2]
  simp only [List.append_assoc]
  refine ⟨_, exec_init rfl rfl, ?_⟩
  rw [fresh_eq_startCommand, hfinish]
  exact ⟨rfl, rfl, h.r7, h.it, h.card, h.responses, h.history, hready⟩

end Sys2Proof.Machine
end
